-- ==== Sys2Proof/Word.lean ====
section
/-! DEFINITION. The word types of the decoder core: the raw byte (R6 `BYTE_W`), the 7-bit data value (R6 `DATA_W`), the
4-bit channel (R6 `CHAN_W`) and the 4-bit command nibble (R51). The core has no other word: no address, no register width. -/

namespace Sys2Proof

/-- A `RawByte` (R31, R50): 8 bits, bit 7 the most significant. -/
abbrev Byte := BitVec 8

/-- The value of a data byte (R52): 7 bits, 0 to 127. -/
abbrev Data7 := BitVec 7

/-- A channel number (R51): 4 bits, 0 to 15. -/
abbrev Channel := BitVec 4

/-- A command nibble (R51): bits 7 to 4 of a status byte. -/
abbrev Nibble := BitVec 4

end Sys2Proof
end

