-- ==== Sys2Proof/Config.lean ====
section
/-! DEFINITION. The parameters that R6 leaves beside the fixed widths: the one behavioural parameter
`NOTEOFF_KEEPS_RELEASE_VELOCITY` (decision D7) with the value this hardware takes, and the open parameter `LATENCY`
(decision D3), which has no body: nothing can be proved of its value. -/

namespace Sys2Proof

/-- The behavioural parameters of the core (R6; "Open parameters, in one place" of 92_eei_decisions.md). -/
structure Config where
  /-- `NOTEOFF_KEEPS_RELEASE_VELOCITY` (R93, D7): whether the NoteOff made from a `0x8n` message keeps `data2`. -/
  noteOffKeepsReleaseVelocity : Bool
  deriving DecidableEq, Repr

/-- The values this hardware takes (R6): `NOTEOFF_KEEPS_RELEASE_VELOCITY = false`. The machine uses this one; the
translation itself takes the parameter (`Machine.translateWith`), so claims can be made for both values. -/
def Config.hardware : Config :=
  ⟨false⟩

/-- `LATENCY` (R6, R147, D3): OPEN, a non-negative integer, the same for every byte; "no rule depends on it". -/
opaque Config.latency : Nat

end Sys2Proof
end

