-- ==== Sys2Proof/Syntax.lean ====
section
/-! DEFINITION. The two instruction sets of R62's opcode table, as one type: the twelve byte rows, decoded by the Message
Assembler one byte a step, and the eight message rows, decoded by the Event Translator. Beside it the state condition
that selects among the three rows of a data byte, and the reasons for which a word is no instruction. -/

namespace Sys2Proof

/-- One constructor per row of spec/opcode_table.json (R62). -/
inductive Instr where
  /-- `RT`, `11111rrr`: System Real-Time byte (R71). -/
  | rt (code : BitVec 3)
  /-- `ST_NOTE_OFF`, `1000cccc` (R72). -/
  | stNoteOff (channel : Channel)
  /-- `ST_NOTE_ON`, `1001cccc` (R73). -/
  | stNoteOn (channel : Channel)
  /-- `ST_UNSUP_A`, `1010cccc`: unsupported status (R74). -/
  | stUnsupA (channel : Channel)
  /-- `ST_CTRL_CHANGE`, `1011cccc` (R75). -/
  | stCtrlChange (channel : Channel)
  /-- `ST_PROG_CHANGE`, `1100cccc` (R76). -/
  | stProgChange (channel : Channel)
  /-- `ST_CHAN_PRESSURE`, `1101cccc` (R77). -/
  | stChanPressure (channel : Channel)
  /-- `ST_PITCH_BEND`, `1110cccc` (R78). -/
  | stPitchBend (channel : Channel)
  /-- `ST_UNSUP_SYS`, `11110sss`: System Common and SysEx framing, unsupported (R79). -/
  | stUnsupSys (code : BitVec 3)
  /-- `DATA_APPEND`, `0vvvvvvv` with `bytes_pending > 0` (R80). -/
  | dataAppend (value : Data7)
  /-- `DATA_RUNNING`, `0vvvvvvv` with `bytes_pending == 0` and `running_status != none` (R81). -/
  | dataRunning (value : Data7)
  /-- `DATA_ORPHAN`, `0vvvvvvv` with `bytes_pending == 0` and `running_status == none` (R82). -/
  | dataOrphan (value : Data7)
  /-- `NOTE_ON`, `1001cccc 0nnnnnnn 0vvvvvvv` with `data2 != 0` (R92). -/
  | noteOn (channel : Channel) (data1 data2 : Data7)
  /-- `NOTE_OFF`, `1000cccc 0nnnnnnn 0vvvvvvv` (R93). -/
  | noteOff (channel : Channel) (data1 data2 : Data7)
  /-- `NOTE_ON_V0`, `1001cccc 0nnnnnnn 00000000` (R94). -/
  | noteOnV0 (channel : Channel) (data1 : Data7)
  /-- `CTRL_CHANGE`, `1011cccc 0nnnnnnn 0vvvvvvv` (R95). -/
  | ctrlChange (channel : Channel) (data1 data2 : Data7)
  /-- `PITCH_BEND`, `1110cccc 0lllllll 0mmmmmmm` (R96). -/
  | pitchBend (channel : Channel) (data1 data2 : Data7)
  /-- `PROG_CHANGE`, `1100cccc 0ppppppp` (R97). -/
  | progChange (channel : Channel) (data1 : Data7)
  /-- `CHAN_PRESSURE`, `1101cccc 0ppppppp` (R98). -/
  | chanPressure (channel : Channel) (data1 : Data7)
  /-- `MSG_OTHER`: every other combination of command and length (R99); the whole status byte is kept. -/
  | msgOther (status : Byte) (data1 : Data7) (data2 : Option Data7)
  deriving DecidableEq, Repr

/-- The `state_condition` of the three data rows (R62): what of `ParserState` selects the row of a data byte. -/
inductive DataContext where
  /-- `bytes_pending > 0`: a message is in flight. -/
  | inFlight
  /-- `bytes_pending == 0` and `running_status != none`. -/
  | latched
  /-- `bytes_pending == 0` and `running_status == none`. -/
  | idle
  deriving DecidableEq, Repr

/-- Why a list of bytes is no instruction. A single byte is never rejected (R50: "no value is illegal"); these concern
only what is put before the Event Translator on its own. -/
inductive DecodeError where
  /-- Neither one byte, nor a 2- or 3-byte message (R54). -/
  | wrongLength
  /-- The first byte of a message has bit 7 clear, so it is no status byte (R18, R59). -/
  | statusBitClear
  /-- `data1` or `data2` is above 127 (R100, U3: refuse). -/
  | dataOutOfRange
  deriving DecidableEq, Repr

end Sys2Proof
end

