-- ==== Sys2Proof/WellFormed.lean ====
section
/-! DEFINITION. When a term of `Instr` is an instruction the opcode table can spell: the `constraint` of the NOTE_ON row and
the "tried last" of the MSG_OTHER row (R62), and which rows a data byte's state condition admits. -/

namespace Sys2Proof

/-- Whether a command nibble and a length (three bytes or two) match an event-producing row of the Translator's table
(R92 to R98; the length is part of the match, R99, D8). -/
def eventRow (command : Nibble) (threeBytes : Bool) : Bool :=
  if threeBytes then
    command == 0x8#4 || command == 0x9#4 || command == 0xB#4 || command == 0xE#4
  else
    command == 0xC#4 || command == 0xD#4

/-- Well-formed instructions: NOTE_ON has `data2 != 0` (R62, R92), MSG_OTHER has a status byte (bit 7 set, R18) whose
command and length match no row above (R99). Every other row admits all its operands. -/
def WellFormed (i : Instr) : Bool :=
  match i with
  | .rt _ => true
  | .stNoteOff _ => true
  | .stNoteOn _ => true
  | .stUnsupA _ => true
  | .stCtrlChange _ => true
  | .stProgChange _ => true
  | .stChanPressure _ => true
  | .stPitchBend _ => true
  | .stUnsupSys _ => true
  | .dataAppend _ => true
  | .dataRunning _ => true
  | .dataOrphan _ => true
  | .noteOn _ _ d2 => d2 != 0#7
  | .noteOff _ _ _ => true
  | .noteOnV0 _ _ => true
  | .ctrlChange _ _ _ => true
  | .pitchBend _ _ _ => true
  | .progChange _ _ => true
  | .chanPressure _ _ => true
  | .msgOther st _ d2 => st.getLsbD 7 && !eventRow (st.extractLsb' 4 4) d2.isSome

/-- Whether a data context admits the row (R62 `state_condition`): a data row only its own, every other row any. -/
def selectedIn (ctx : DataContext) (i : Instr) : Bool :=
  match i with
  | .dataAppend _ => ctx == .inFlight
  | .dataRunning _ => ctx == .latched
  | .dataOrphan _ => ctx == .idle
  | .rt _ => true
  | .stNoteOff _ => true
  | .stNoteOn _ => true
  | .stUnsupA _ => true
  | .stCtrlChange _ => true
  | .stProgChange _ => true
  | .stChanPressure _ => true
  | .stPitchBend _ => true
  | .stUnsupSys _ => true
  | .noteOn _ _ _ => true
  | .noteOff _ _ _ => true
  | .noteOnV0 _ _ => true
  | .ctrlChange _ _ _ => true
  | .pitchBend _ _ _ => true
  | .progChange _ _ => true
  | .chanPressure _ _ => true
  | .msgOther _ _ _ => true

end Sys2Proof
end

