-- ==== Sys2Proof/Decode.lean ====
section
/-! DEFINITION. The decoder and the encoder: bytes and messages to rows of the opcode table and back. One byte always
decodes, in every data context (R50, R53); a message of two or three bytes decodes to the Translator's row (R54, R62); any
other list of bytes is rejected by name. The bit-field helpers of R51, R52 and R57 stand first. -/

namespace Sys2Proof

/-- Bit 7 set: a status byte (R50). -/
def isStatus (b : Byte) : Bool :=
  b &&& 0x80#8 != 0#8

/-- `byte >= 0xF8`, unsigned (R53, R70, R88): a System Real-Time byte. -/
def isRealTime (b : Byte) : Bool :=
  decide (0xF8#8 ≤ b)

/-- `status_byte[7:4]` (R51). -/
def nibbleOf (b : Byte) : Nibble :=
  b.extractLsb' 4 4

/-- `status_byte & 0x0F`, as the 4-bit channel (R51, R91). -/
def channelOf (b : Byte) : Channel :=
  b.extractLsb' 0 4

/-- The low three bits of a byte of the `0xF_` rows (R62 `rt_code`, `sys_code`). -/
def codeOf (b : Byte) : BitVec 3 :=
  b.extractLsb' 0 3

/-- `byte[6:0]`, the value of a data byte (R52). -/
def dataValue (b : Byte) : Data7 :=
  b.extractLsb' 0 7

/-- The status byte of a command nibble and a channel (R51). -/
def statusByte (command : Nibble) (channel : Channel) : Byte :=
  command ++ channel

/-- The data byte of a 7-bit value (R52): bit 7 is 0. -/
def dataByte (v : Data7) : Byte :=
  0#1 ++ v

/-- The data row that a data context selects (R62). -/
def decodeData (ctx : DataContext) (v : Data7) : Instr :=
  match ctx with
  | .inFlight => .dataAppend v
  | .latched => .dataRunning v
  | .idle => .dataOrphan v

/-- The byte class map (R53), tested by the rows' `mask` and `match`, the RT row before the ST_UNSUP_SYS row as R62 says.
Total: every byte is in exactly one class. -/
def decodeByte (ctx : DataContext) (b : Byte) : Instr :=
  if b &&& 0xF8#8 = 0xF8#8 then .rt (codeOf b)
  else if b &&& 0xF8#8 = 0xF0#8 then .stUnsupSys (codeOf b)
  else if b &&& 0xF0#8 = 0x80#8 then .stNoteOff (channelOf b)
  else if b &&& 0xF0#8 = 0x90#8 then .stNoteOn (channelOf b)
  else if b &&& 0xF0#8 = 0xA0#8 then .stUnsupA (channelOf b)
  else if b &&& 0xF0#8 = 0xB0#8 then .stCtrlChange (channelOf b)
  else if b &&& 0xF0#8 = 0xC0#8 then .stProgChange (channelOf b)
  else if b &&& 0xF0#8 = 0xD0#8 then .stChanPressure (channelOf b)
  else if b &&& 0xF0#8 = 0xE0#8 then .stPitchBend (channelOf b)
  else decodeData ctx (dataValue b)

/-- The row of a two-byte message (format `M2`, R54). -/
def decodeM2 (s : Byte) (d1 : Data7) : Instr :=
  if nibbleOf s = 0xC#4 then .progChange (channelOf s) d1
  else if nibbleOf s = 0xD#4 then .chanPressure (channelOf s) d1
  else .msgOther s d1 none

/-- The row of a three-byte message (format `M3`, R54); the two Note-On rows are told apart by their `constraint`
(R62). -/
def decodeM3 (s : Byte) (d1 d2 : Data7) : Instr :=
  if nibbleOf s = 0x9#4 then
    if d2 = 0#7 then .noteOnV0 (channelOf s) d1 else .noteOn (channelOf s) d1 d2
  else if nibbleOf s = 0x8#4 then .noteOff (channelOf s) d1 d2
  else if nibbleOf s = 0xB#4 then .ctrlChange (channelOf s) d1 d2
  else if nibbleOf s = 0xE#4 then .pitchBend (channelOf s) d1 d2
  else .msgOther s d1 (some d2)

/-- A completed message, as its bytes in order of arrival (R54, R61), to the Translator's row; a list that is no
`RawMessage` (R18, R59, R100) is rejected by name. -/
def decodeMessage (bytes : List Byte) : Except DecodeError Instr :=
  match bytes with
  | [s, d1] =>
    if !isStatus s then .error .statusBitClear
    else if isStatus d1 then .error .dataOutOfRange
    else .ok (decodeM2 s (dataValue d1))
  | [s, d1, d2] =>
    if !isStatus s then .error .statusBitClear
    else if isStatus d1 || isStatus d2 then .error .dataOutOfRange
    else .ok (decodeM3 s (dataValue d1) (dataValue d2))
  | _ => .error .wrongLength

/-- The whole decoder: one byte is a byte row, two or three bytes are a message row, anything else is rejected. -/
def decode (ctx : DataContext) (bytes : List Byte) : Except DecodeError Instr :=
  match bytes with
  | [b] => .ok (decodeByte ctx b)
  | _ => decodeMessage bytes

/-- The encoder, from the `encoding` patterns of the opcode table, the first byte first (R53, R54, R62). -/
def encode (i : Instr) : List Byte :=
  match i with
  | .rt c => [0b11111#5 ++ c]
  | .stNoteOff ch => [statusByte 0x8#4 ch]
  | .stNoteOn ch => [statusByte 0x9#4 ch]
  | .stUnsupA ch => [statusByte 0xA#4 ch]
  | .stCtrlChange ch => [statusByte 0xB#4 ch]
  | .stProgChange ch => [statusByte 0xC#4 ch]
  | .stChanPressure ch => [statusByte 0xD#4 ch]
  | .stPitchBend ch => [statusByte 0xE#4 ch]
  | .stUnsupSys c => [0b11110#5 ++ c]
  | .dataAppend v => [dataByte v]
  | .dataRunning v => [dataByte v]
  | .dataOrphan v => [dataByte v]
  | .noteOn ch d1 d2 => [statusByte 0x9#4 ch, dataByte d1, dataByte d2]
  | .noteOff ch d1 d2 => [statusByte 0x8#4 ch, dataByte d1, dataByte d2]
  | .noteOnV0 ch d1 => [statusByte 0x9#4 ch, dataByte d1, 0x00#8]
  | .ctrlChange ch d1 d2 => [statusByte 0xB#4 ch, dataByte d1, dataByte d2]
  | .pitchBend ch d1 d2 => [statusByte 0xE#4 ch, dataByte d1, dataByte d2]
  | .progChange ch d1 => [statusByte 0xC#4 ch, dataByte d1]
  | .chanPressure ch d1 => [statusByte 0xD#4 ch, dataByte d1]
  | .msgOther s d1 none => [s, dataByte d1]
  | .msgOther s d1 (some d2) => [s, dataByte d1, dataByte d2]

/-- The `match` and `mask` of the instruction's row in spec/opcode_table.json, and its width in bytes (a MSG_OTHER row
has both 0 and the width of the message it holds). -/
def tableRow (i : Instr) : Nat × Nat × Nat :=
  match i with
  | .rt _ => (248, 248, 1)
  | .stNoteOff _ => (128, 240, 1)
  | .stNoteOn _ => (144, 240, 1)
  | .stUnsupA _ => (160, 240, 1)
  | .stCtrlChange _ => (176, 240, 1)
  | .stProgChange _ => (192, 240, 1)
  | .stChanPressure _ => (208, 240, 1)
  | .stPitchBend _ => (224, 240, 1)
  | .stUnsupSys _ => (240, 248, 1)
  | .dataAppend _ => (0, 128, 1)
  | .dataRunning _ => (0, 128, 1)
  | .dataOrphan _ => (0, 128, 1)
  | .noteOn _ _ _ => (9437184, 15761536, 3)
  | .noteOff _ _ _ => (8388608, 15761536, 3)
  | .noteOnV0 _ _ => (9437184, 15761663, 3)
  | .ctrlChange _ _ _ => (11534336, 15761536, 3)
  | .pitchBend _ _ _ => (14680064, 15761536, 3)
  | .progChange _ _ => (49152, 61568, 2)
  | .chanPressure _ _ => (53248, 61568, 2)
  | .msgOther _ _ d2 => (0, 0, if d2.isSome then 3 else 2)

/-- The bytes of a table word of `n` bytes, in order of arrival: the table numbers bits over the concatenation
`{status, data1, data2}` (R54, R62), so the first byte is the MOST significant one. -/
def wordBytes : Nat → Nat → List Byte
  | 0, _ => []
  | n + 1, w => BitVec.ofNat 8 (w >>> (8 * n)) :: wordBytes n w

/-- What the decoder reads from a table word of `nbits` bits, in the data context that holds right after reset (R21:
`Idle`): a data byte is then the DATA_ORPHAN row; the other two data rows have the same word and another state. -/
def decodeTableWord (nbits w : Nat) : Option Instr :=
  (decode .idle (wordBytes (nbits / 8) w)).toOption

end Sys2Proof
end

