-- ==== Sys2Proof/Machine/State.lean ====
section
/-! DEFINITION. What the machine holds: `ParserState`, the whole architectural state of the core (R10), and beside it what
lies on the two sides of the core and is NOT core state: the stimulus the host has yet to apply, and the outputs of the
step just taken with the record of what was handed to the Output Sink. Then the reasons a step can stop, and reset. -/

namespace Sys2Proof.Machine

/-- The whole architectural state of the core (R10): exactly three fields. -/
structure ParserState where
  /-- `running_status` (R11): the most recently latched status byte, or none. -/
  runningStatus : Option Byte
  /-- `partial_buffer` (R12): the bytes of the message being assembled, the status byte first. -/
  partialBuffer : List Byte
  /-- `bytes_pending` (R13): how many data bytes the current message still needs: 0, 1 or 2. -/
  bytesPending : Fin 3
  deriving DecidableEq, Repr

/-- A completed message (R18, R59). `channel` is `statusByte[3:0]` and no field of its own (C10). -/
structure RawMessage where
  /-- The status byte; bit 7 is set in every message the Assembler emits. -/
  statusByte : Byte
  /-- The first data byte's value. -/
  data1 : Data7
  /-- The second data byte's value, present exactly when the message has three bytes. -/
  data2 : Option Data7
  deriving DecidableEq, Repr

/-- The closed variant set of the core's output (R19). -/
inductive MidiEvent where
  /-- `NoteOn` (R92). -/
  | noteOn (channel : Channel) (note velocity : Data7)
  /-- `NoteOff` (R93, R94). -/
  | noteOff (channel : Channel) (note velocity : Data7)
  /-- `ControlChange` (R95). -/
  | controlChange (channel : Channel) (controller value : Data7)
  /-- `PitchBend` (R96); `value` is a signed integer, -8192 to 8191 (R7, R102). -/
  | pitchBend (channel : Channel) (value : Int)
  /-- `ProgramChange` (R97). -/
  | programChange (channel : Channel) (program : Data7)
  /-- `ChannelPressure` (R98). -/
  | channelPressure (channel : Channel) (pressure : Data7)
  deriving DecidableEq, Repr

/-- One clock cycle on the core's input ports (R44). -/
structure PortCycle where
  /-- `rst`: synchronous, active high (R137). -/
  rst : Bool
  /-- `in_valid`: whether `in_byte` is a byte to be fed. -/
  inValid : Bool
  /-- `in_byte`: the `RawByte`; carries nothing when `in_valid` is 0. -/
  inByte : Byte
  deriving DecidableEq, Repr

/-- One thing the host does to the machine: a cycle on the core's ports, or a message put directly before the Event
Translator, whose input wires "may be exposed" (R44) and whose table is defined on its own (R90, R99, C8). -/
inductive Input where
  /-- One cycle on `rst`, `in_valid`, `in_byte`. -/
  | cycle (c : PortCycle)
  /-- The bytes of a message for the Translator alone, status first (R61). -/
  | message (bytes : List Byte)
  deriving DecidableEq, Repr

/-- A byte offered by the Transport (R31): `in_valid` 1, `rst` 0. -/
def Input.ofByte (b : Byte) : Input :=
  .cycle ⟨false, true, b⟩

/-- Why the core would stop with a fault: there is no constructor. "The step function has no fault outcome and no trap
outcome" (R115); the treatment "fault" is used nowhere (93_implementation_defined.md). -/
inductive Fault : Type
  deriving DecidableEq, Repr

/-- Why a step has no meaning. None is raised in a state that a run from reset can reach, on any byte (R16, R17, R84). -/
inductive Refusal where
  /-- An instruction whose meaning is not written: raised by no arm. Safe. -/
  | notModelled (mnemonic : String)
  /-- A byte fed in a state that is not well-formed (R89, D10, U6: "refuse"). Raised by every byte row. Safe. -/
  | illFormedState
  /-- A data row executed where its `state_condition` (R62) does not hold, so the table does not select it; raised by the
  three data rows, never through `step`. Safe. -/
  | dataRowNotSelected
  /-- The bytes put before the Translator are no `RawMessage` (R18, R54, R100, U3: "refuse"). Raised by `step`. Safe. -/
  | notAMessage (why : DecodeError)
  deriving DecidableEq, Repr

/-- The machine: the core, and its two sides. Only `parser` is the core's state (R10). -/
structure State where
  /-- `ParserState`, the core's whole state (R10). -/
  parser : ParserState
  /-- MODEL'S OWN (log 1): what the host has yet to apply, first first. The core cannot read ahead in it (R31); it is the
  Transport's side of the port, not a FIFO of the core (R41). -/
  input : List Input
  /-- MODEL'S OWN (log 2): the `msg_*` wires of the step just taken (R59): the message it completed, if any. -/
  message : Option RawMessage
  /-- MODEL'S OWN (log 2): the `ev_*` wires of the step just taken (R60): the event it dispatched, if any. -/
  event : Option MidiEvent
  /-- MODEL'S OWN (log 2): every event handed to the Output Sink so far, oldest first. The Sink's side; no rule of the
  core reads it (R33, R41). -/
  sink : List MidiEvent
  deriving DecidableEq, Repr

/-- The fresh state, which is `Idle` (R21, D1). -/
def ParserState.fresh : ParserState :=
  ⟨none, [], 0⟩

/-- The machine right after reset: the fresh `ParserState` (R21), no output (R135, R137), nothing fed yet and nothing
handed to the Sink. -/
def State.reset : State :=
  ⟨ParserState.fresh, [], none, none, []⟩

end Sys2Proof.Machine
end

