-- ==== Sys2Proof/Machine/Operands.lean ====
section
/-! DEFINITION. The operand forms: the fields of a status byte, the length of a message, the message read out of the
partial buffer, and the values the Translator derives from a message (R55, R57, R80, R91, R96). -/

namespace Sys2Proof.Machine

/-- The data bytes a status byte calls for (R55, second column): 2, 1, or 0 for every other command nibble. -/
def dataBytesOf (s : Byte) : Fin 3 :=
  if nibbleOf s = 0xC#4 ∨ nibbleOf s = 0xD#4 then 1
  else if nibbleOf s = 0x8#4 ∨ nibbleOf s = 0x9#4 ∨ nibbleOf s = 0xB#4 ∨ nibbleOf s = 0xE#4 then 2
  else 0

/-- `msglen(s)` (R55): the whole length, status included, or 0 for an unsupported status. -/
def msglen (s : Byte) : Nat :=
  if dataBytesOf s = 0 then 0 else (dataBytesOf s).val + 1

/-- `bytes_pending - 1` (R88): on 1 or 2, giving 0 or 1; used nowhere else. -/
def pendingPred (p : Fin 3) : Fin 3 :=
  ⟨p.val - 1, by omega⟩

/-- The message of a full buffer (R80): slot 0 the status byte, slots 1 and 2 the data, each taken as its low seven bits
(R59). A buffer of another length holds no message. -/
def RawMessage.ofBuffer (buffer : List Byte) : Option RawMessage :=
  match buffer with
  | [s, d1] => some ⟨s, dataValue d1, none⟩
  | [s, d1, d2] => some ⟨s, dataValue d1, some (dataValue d2)⟩
  | _ => none

/-- `cmd = status_byte & 0xF0` (R91). -/
def RawMessage.command (m : RawMessage) : Byte :=
  m.statusByte &&& 0xF0#8

/-- `channel = status_byte & 0x0F` (R91), the `channel` of the message (R18, C10). -/
def RawMessage.channel (m : RawMessage) : Channel :=
  channelOf m.statusByte

/-- `len` (R91): 3 when `data2` is present and 2 when it is not. -/
def RawMessage.len (m : RawMessage) : Nat :=
  if m.data2.isSome then 3 else 2

/-- The bytes of a message in order of arrival (R34, R61). -/
def RawMessage.bytes (m : RawMessage) : List Byte :=
  m.statusByte :: dataByte m.data1 :: (m.data2.map dataByte).toList

/-- `raw = (data2 << 7) | data1` (R96), on integers (R7). -/
def pitchBendRaw (data1 data2 : Data7) : Nat :=
  (data2.toNat <<< 7) ||| data1.toNat

/-- `raw - 8192` (R96), a signed integer. -/
def pitchBendValue (data1 data2 : Data7) : Int :=
  (pitchBendRaw data1 data2 : Int) - 8192

end Sys2Proof.Machine
end

