-- ==== Sys2Proof/Machine/Flags.lean ====
section
/-! DEFINITION. The core has no flags (R22). What stands in their place: the presence bit of `running_status`, the state
condition of the data rows, the three conceptual states of R14 as predicates, and well-formedness (R16). -/

namespace Sys2Proof.Machine

/-- A recognised status (R11, glossary): bit 7 set and command nibble one of `0x8`, `0x9`, `0xB`, `0xC`, `0xD`, `0xE`. -/
def recognised (s : Byte) : Bool :=
  nibbleOf s == 0x8#4 || nibbleOf s == 0x9#4 || nibbleOf s == 0xB#4 || nibbleOf s == 0xC#4 || nibbleOf s == 0xD#4
    || nibbleOf s == 0xE#4

/-- An unsupported status (glossary, R58): a status byte below `0xF8` that is not recognised. -/
def unsupported (b : Byte) : Bool :=
  isStatus b && !isRealTime b && !recognised b

/-- The presence bit of `running_status`, "the only flag-like state" (R22). -/
def ParserState.hasStatus (p : ParserState) : Bool :=
  p.runningStatus.isSome

/-- A message is in flight (glossary): `bytes_pending > 0`. -/
def ParserState.inFlight (p : ParserState) : Bool :=
  p.bytesPending != 0

/-- The state condition of the data rows (R62, R70). -/
def ParserState.dataContext (p : ParserState) : DataContext :=
  if p.inFlight then .inFlight else if p.hasStatus then .latched else .idle

/-- `Idle` (R14). -/
def ParserState.isIdle (p : ParserState) : Bool :=
  p.runningStatus == none && p.bytesPending == 0 && p.partialBuffer == []

/-- `AwaitingData(remaining)` (R14): `bytes_pending == remaining > 0`. -/
def ParserState.isAwaiting (p : ParserState) (remaining : Fin 3) : Bool :=
  p.bytesPending == remaining && remaining != 0

/-- `HaveRunningStatus` (R14). -/
def ParserState.isHaveRunningStatus (p : ParserState) : Bool :=
  p.runningStatus != none && p.bytesPending == 0 && p.partialBuffer == []

/-- `WF(S)` (R16): the five cases of its table, in its order. -/
def ParserState.wf (p : ParserState) : Bool :=
  match p.runningStatus, p.partialBuffer, p.bytesPending with
  | none, [], 0 => true
  | some s, [], 0 => recognised s
  | some s, [s'], 2 => recognised s && msglen s == 3 && s' == s
  | some s, [s', d], 1 => recognised s && msglen s == 3 && s' == s && !isStatus d
  | some s, [s'], 1 => recognised s && msglen s == 2 && s' == s
  | _, _, _ => false

end Sys2Proof.Machine
end

