-- ==== Sys2Proof/Machine/Ops.lean ====
section
/-! DEFINITION. The named operations: the writes of `ParserState` (R70, R87), the Translator's table (R90 to R99), the
composition of the two in one step (R105), reset (R135) and a cycle without a byte (R132). There is no exception to take
and none to return from (R115, R124, R125); in their place stand `ParserState.fresh`, which an unsupported status loads, and
`latchStatus`, by which a recognised status resynchronises the core from any well-formed state. -/

namespace Sys2Proof.Machine

/-- A recognised status byte: latch it, make it the whole buffer, and await its data bytes (R70, R72 to R78). All three
fields are written, whatever they held. -/
def latchStatus (b : Byte) (pending : Fin 3) : ParserState :=
  ⟨some b, [b], pending⟩

/-- A data byte with a message in flight (R80): append, count down, and on the last byte read the message out and empty
the buffer; `running_status` is not written. -/
def appendData (p : ParserState) (b : Byte) : ParserState × Option RawMessage :=
  let buffer := p.partialBuffer ++ [b]
  let pending := pendingPred p.bytesPending
  if pending = 0 then (⟨p.runningStatus, [], pending⟩, RawMessage.ofBuffer buffer)
  else (⟨p.runningStatus, buffer, pending⟩, none)

/-- `status_path(S, b)` (R70): Real-Time bytes write nothing; every other status is dispatched on its command nibble. -/
def statusPath (p : ParserState) (b : Byte) : ParserState :=
  if isRealTime b then p
  else
    let n := nibbleOf b
    if n = 0xC#4 ∨ n = 0xD#4 then latchStatus b 1
    else if n = 0x8#4 ∨ n = 0x9#4 ∨ n = 0xB#4 ∨ n = 0xE#4 then latchStatus b 2
    else ParserState.fresh

/-- `translate` (R90 to R99) with the parameter of R93: a look-up on command and length, a pure total function of the
message. -/
def translateWith (cfg : Config) (m : RawMessage) : Option MidiEvent :=
  match m.data2 with
  | some d2 =>
    if m.command = 0x80#8 then
      some (.noteOff m.channel m.data1 (if cfg.noteOffKeepsReleaseVelocity then d2 else 0#7))
    else if m.command = 0x90#8 then
      if d2 = 0#7 then some (.noteOff m.channel m.data1 0#7) else some (.noteOn m.channel m.data1 d2)
    else if m.command = 0xB0#8 then some (.controlChange m.channel m.data1 d2)
    else if m.command = 0xE0#8 then some (.pitchBend m.channel (pitchBendValue m.data1 d2))
    else none
  | none =>
    if m.command = 0xC0#8 then some (.programChange m.channel m.data1)
    else if m.command = 0xD0#8 then some (.channelPressure m.channel m.data1)
    else none

/-- `translate` (R90) of this hardware, at the parameter values of R6. -/
def translateMsg (m : RawMessage) : Option MidiEvent :=
  translateWith Config.hardware m

/-- The outputs of one step (R105, R106): the message it completed, the event that message translates to, and that event
handed to the Sink once, in this step. Nothing of an earlier step's outputs stays (R24). -/
def State.present (s : State) (m : Option RawMessage) : State :=
  let e := m.bind translateMsg
  { s with message := m, event := e, sink := s.sink ++ e.toList }

/-- One step of the Facade (R105) around the Assembler's transition `f`: defined on well-formed states (R89), else
refused. -/
def byteStep (s : State) (f : ParserState → ParserState × Option RawMessage) : Host.Outcome State Fault Refusal :=
  if s.parser.wf then
    let (p, m) := f s.parser
    .next ({ s with parser := p }.present m)
  else .refused .illFormedState

/-- A data row of the Facade: `byteStep`, where the state condition of the row holds (R62). -/
def dataStep (s : State) (ctx : DataContext) (f : ParserState → ParserState × Option RawMessage) :
    Host.Outcome State Fault Refusal :=
  if s.parser.dataContext = ctx then byteStep s f else .refused .dataRowNotSelected

/-- One call of the Translator alone (R90): no state read, none written; its result stands on the `ev_*` wires. -/
def translatorStep (m : RawMessage) (s : State) : Host.Outcome State Fault Refusal :=
  .next (s.present (some m))

/-- A cycle in which no byte is offered (R44, R132): the state is kept, both valid strobes are 0. -/
def State.quiet (s : State) : State :=
  s.present none

/-- A cycle with `rst == 1` (R135, R137): the fresh state is loaded, both valid strobes are 0, no event. -/
def State.applyReset (s : State) : State :=
  { s with parser := ParserState.fresh }.present none

end Sys2Proof.Machine
end

