-- ==== Sys2Proof/Machine/Assembler.lean ====
section
/-! DEFINITION. The Message Assembler: a meaning for each of the twelve byte rows, from its own rule (R71 to R82), and the
Assembler's whole step `feed_asm` as the pseudocode of R70 gives it, by which those meanings can be checked. -/

namespace Sys2Proof.Machine

/-- `RT` (R71): no state change, no output, in every state. -/
def execRt (_code : BitVec 3) (s : State) : Host.Outcome State Fault Refusal :=
  byteStep s fun p => (p, none)

/-- `ST_NOTE_OFF` (R72). -/
def execStNoteOff (channel : Channel) (s : State) : Host.Outcome State Fault Refusal :=
  byteStep s fun _ => (latchStatus (statusByte 0x8#4 channel) 2, none)

/-- `ST_NOTE_ON` (R73). -/
def execStNoteOn (channel : Channel) (s : State) : Host.Outcome State Fault Refusal :=
  byteStep s fun _ => (latchStatus (statusByte 0x9#4 channel) 2, none)

/-- `ST_UNSUP_A` (R74): the net effect is `Idle` from any state. -/
def execStUnsupA (_channel : Channel) (s : State) : Host.Outcome State Fault Refusal :=
  byteStep s fun _ => (ParserState.fresh, none)

/-- `ST_CTRL_CHANGE` (R75). -/
def execStCtrlChange (channel : Channel) (s : State) : Host.Outcome State Fault Refusal :=
  byteStep s fun _ => (latchStatus (statusByte 0xB#4 channel) 2, none)

/-- `ST_PROG_CHANGE` (R76): one data byte is awaited. -/
def execStProgChange (channel : Channel) (s : State) : Host.Outcome State Fault Refusal :=
  byteStep s fun _ => (latchStatus (statusByte 0xC#4 channel) 1, none)

/-- `ST_CHAN_PRESSURE` (R77): one data byte is awaited. -/
def execStChanPressure (channel : Channel) (s : State) : Host.Outcome State Fault Refusal :=
  byteStep s fun _ => (latchStatus (statusByte 0xD#4 channel) 1, none)

/-- `ST_PITCH_BEND` (R78). -/
def execStPitchBend (channel : Channel) (s : State) : Host.Outcome State Fault Refusal :=
  byteStep s fun _ => (latchStatus (statusByte 0xE#4 channel) 2, none)

/-- `ST_UNSUP_SYS` (R79): the low three bits are not examined; `Idle` from any state. -/
def execStUnsupSys (_code : BitVec 3) (s : State) : Host.Outcome State Fault Refusal :=
  byteStep s fun _ => (ParserState.fresh, none)

/-- `DATA_APPEND` (R80). -/
def execDataAppend (value : Data7) (s : State) : Host.Outcome State Fault Refusal :=
  dataStep s .inFlight fun p => appendData p (dataByte value)

/-- The running-status re-entry (R81): the latched status goes through the status path, then the byte through the append
of R80, both in this step. -/
def reinject (p : ParserState) (b : Byte) : ParserState × Option RawMessage :=
  match p.runningStatus with
  | some s => appendData (statusPath p s) b
  | none => (p, none)

/-- `DATA_RUNNING` (R81). -/
def execDataRunning (value : Data7) (s : State) : Host.Outcome State Fault Refusal :=
  dataStep s .latched fun p => reinject p (dataByte value)

/-- `DATA_ORPHAN` (R82): discarded, no state change. -/
def execDataOrphan (_value : Data7) (s : State) : Host.Outcome State Fault Refusal :=
  dataStep s .idle fun p => (p, none)

/-- `data_path(S, b)` (R70), the re-entry unrolled as its listing is. -/
def dataPath (p : ParserState) (b : Byte) : ParserState × Option RawMessage :=
  if p.bytesPending = 0 then
    match p.runningStatus with
    | some s => appendData (statusPath p s) b
    | none => (p, none)
  else appendData p b

/-- `feed_asm(S, b)` (R70): the Assembler's whole step, on well-formed states only (R89); `none` elsewhere. -/
def feedAsm (p : ParserState) (b : Byte) : Option (ParserState × Option RawMessage) :=
  if p.wf then
    if isStatus b then some (statusPath p b, none) else some (dataPath p b)
  else none

end Sys2Proof.Machine
end

