-- ==== Sys2Proof/Machine/Translator.lean ====
section
/-! DEFINITION. The Event Translator on its own: a meaning for each of the eight message rows (R92 to R99). Each is one call
of the Translator on the message the row spells; the Assembler's state is neither read nor written (R90). -/

namespace Sys2Proof.Machine

/-- `NOTE_ON` (R92). -/
def execNoteOn (channel : Channel) (data1 data2 : Data7) (s : State) : Host.Outcome State Fault Refusal :=
  translatorStep ⟨statusByte 0x9#4 channel, data1, some data2⟩ s

/-- `NOTE_OFF` (R93). -/
def execNoteOff (channel : Channel) (data1 data2 : Data7) (s : State) : Host.Outcome State Fault Refusal :=
  translatorStep ⟨statusByte 0x8#4 channel, data1, some data2⟩ s

/-- `NOTE_ON_V0` (R94). -/
def execNoteOnV0 (channel : Channel) (data1 : Data7) (s : State) : Host.Outcome State Fault Refusal :=
  translatorStep ⟨statusByte 0x9#4 channel, data1, some 0#7⟩ s

/-- `CTRL_CHANGE` (R95). -/
def execCtrlChange (channel : Channel) (data1 data2 : Data7) (s : State) : Host.Outcome State Fault Refusal :=
  translatorStep ⟨statusByte 0xB#4 channel, data1, some data2⟩ s

/-- `PITCH_BEND` (R96). -/
def execPitchBend (channel : Channel) (data1 data2 : Data7) (s : State) : Host.Outcome State Fault Refusal :=
  translatorStep ⟨statusByte 0xE#4 channel, data1, some data2⟩ s

/-- `PROG_CHANGE` (R97). -/
def execProgChange (channel : Channel) (data1 : Data7) (s : State) : Host.Outcome State Fault Refusal :=
  translatorStep ⟨statusByte 0xC#4 channel, data1, none⟩ s

/-- `CHAN_PRESSURE` (R98). -/
def execChanPressure (channel : Channel) (data1 : Data7) (s : State) : Host.Outcome State Fault Refusal :=
  translatorStep ⟨statusByte 0xD#4 channel, data1, none⟩ s

/-- `MSG_OTHER` (R99): the message is silently dropped. -/
def execMsgOther (status : Byte) (data1 : Data7) (data2 : Option Data7) (s : State) :
    Host.Outcome State Fault Refusal :=
  translatorStep ⟨status, data1, data2⟩ s

end Sys2Proof.Machine
end

