-- ==== Sys2Proof/Machine/Dispatch.lean ====
section
/-! DEFINITION. One arm per instruction. -/

namespace Sys2Proof.Machine

def exec (i : Instr) (s : State) : Host.Outcome State Fault Refusal :=
  match i with
  | .rt code => Sys2Proof.Machine.execRt code s
  | .stNoteOff channel => Sys2Proof.Machine.execStNoteOff channel s
  | .stNoteOn channel => Sys2Proof.Machine.execStNoteOn channel s
  | .stUnsupA channel => Sys2Proof.Machine.execStUnsupA channel s
  | .stCtrlChange channel => Sys2Proof.Machine.execStCtrlChange channel s
  | .stProgChange channel => Sys2Proof.Machine.execStProgChange channel s
  | .stChanPressure channel => Sys2Proof.Machine.execStChanPressure channel s
  | .stPitchBend channel => Sys2Proof.Machine.execStPitchBend channel s
  | .stUnsupSys code => Sys2Proof.Machine.execStUnsupSys code s
  | .dataAppend value => Sys2Proof.Machine.execDataAppend value s
  | .dataRunning value => Sys2Proof.Machine.execDataRunning value s
  | .dataOrphan value => Sys2Proof.Machine.execDataOrphan value s
  | .noteOn channel data1 data2 => Sys2Proof.Machine.execNoteOn channel data1 data2 s
  | .noteOff channel data1 data2 => Sys2Proof.Machine.execNoteOff channel data1 data2 s
  | .noteOnV0 channel data1 => Sys2Proof.Machine.execNoteOnV0 channel data1 s
  | .ctrlChange channel data1 data2 => Sys2Proof.Machine.execCtrlChange channel data1 data2 s
  | .pitchBend channel data1 data2 => Sys2Proof.Machine.execPitchBend channel data1 data2 s
  | .progChange channel data1 => Sys2Proof.Machine.execProgChange channel data1 s
  | .chanPressure channel data1 => Sys2Proof.Machine.execChanPressure channel data1 s
  | .msgOther status data1 data2 => Sys2Proof.Machine.execMsgOther status data1 data2 s

end Sys2Proof.Machine
end

