-- ==== Sys2Proof/Machine/Fetch.lean ====
section
/-! DEFINITION. Which instruction the next step runs. The core fetches nothing (R22): the host presents one thing a step, a
cycle on the ports or a message for the Translator, and the byte's class with the state selects the row (R53, R62, R70). -/

namespace Sys2Proof.Machine

/-- What the next step is. -/
inductive Fetched where
  /-- No byte is offered: nothing presented, or a cycle with `in_valid` 0 (R132). -/
  | nothing
  /-- A cycle with `rst` 1 (R137). -/
  | reset
  /-- An instruction. -/
  | instr (i : Instr)
  /-- The bytes put before the Translator are no message (R100, U3). -/
  | rejected (why : DecodeError)
  deriving DecidableEq, Repr

/-- One input, read in the data context of the current state. Reset wins over a byte in the same cycle (R137, R123). -/
def fetchInput (ctx : DataContext) (inp : Input) : Fetched :=
  match inp with
  | .cycle c =>
    if c.rst then .reset
    else if c.inValid then .instr (decodeByte ctx c.inByte)
    else .nothing
  | .message bytes =>
    match decodeMessage bytes with
    | .ok i => .instr i
    | .error e => .rejected e

/-- What the next step is, from what the host presents next. -/
def fetch (s : State) : Fetched :=
  match s.input with
  | [] => .nothing
  | inp :: _ => fetchInput s.parser.dataContext inp

/-- The stream moves on by exactly one a step, neither more nor less (R22, R31). -/
def State.advance (s : State) : State :=
  { s with input := s.input.tail }

/-- A table word as the host presents it: one byte on the port, or the bytes of a message before the Translator. -/
def wordInput (nbits w : Nat) : Input :=
  match wordBytes (nbits / 8) w with
  | [b] => Input.ofByte b
  | bytes => .message bytes

end Sys2Proof.Machine
end

