-- ==== Sys2Proof/Machine/Step.lean ====
section
/-! DEFINITION. One step of the machine (R9): take what the host presents next, move the stream on by one, and run it. With
nothing presented the core is idle and keeps its state (R132, R146). -/

namespace Sys2Proof.Machine

/-- One step. -/
def step (s : State) : Host.Outcome State Fault Refusal :=
  match fetch s with
  | .nothing => .next s.advance.quiet
  | .reset => .next s.advance.applyReset
  | .instr i => exec i s.advance
  | .rejected e => .refused (.notAMessage e)

/-- `s` with the table word presented next, before whatever else the host has yet to apply. -/
def State.withFetchWord (s : State) (nbits w : Nat) : State :=
  { s with input := wordInput nbits w :: s.input }

end Sys2Proof.Machine
end

