-- ==== Sys2Proof/Machine/Anomalies.lean ====
section
/-! DEFINITION. The anomaly classes AN1 to AN5 (R116 to R120) as predicates on what is fed: names for claims, not an output of
the core, which reports no anomaly (R121). -/

namespace Sys2Proof.Machine

/-- The labels of R116 to R120. -/
inductive Anomaly where
  /-- AN1, desynchronised stream (R116). -/
  | desynchronised
  /-- AN2, unsupported status byte (R117). -/
  | unsupportedStatus
  /-- AN3, System Real-Time byte (R118). -/
  | realTime
  /-- AN4, a message the Translator does not map (R119). -/
  | unmappedMessage
  /-- AN5, truncated message (R120). -/
  | truncated
  deriving DecidableEq, Repr

/-- Whether feeding `b` in `p` is an instance of the anomaly (R116 to R118, R120); AN4 concerns messages, not bytes. -/
def Anomaly.atByte (a : Anomaly) (p : ParserState) (b : Byte) : Bool :=
  match a with
  | .desynchronised => !isStatus b && p.isIdle
  | .unsupportedStatus => unsupported b
  | .realTime => isRealTime b
  | .unmappedMessage => false
  | .truncated => isStatus b && !isRealTime b && p.inFlight

/-- AN4 (R119): a message that matches no row of R92 to R98. -/
def unmapped (m : RawMessage) : Bool :=
  (translateMsg m).isNone

end Sys2Proof.Machine
end

