-- ==== Sys2Proof/Machine/Facade.lean ====
section
/-! DEFINITION. The Decoder Facade (R105 to R111) as functions on `ParserState` alone: one byte, a chunk, and a chunk at the
level of raw messages. `none` is R89's refusal on a state that is not well-formed. The machine's `step` is checked against
these. -/

namespace Sys2Proof.Machine

/-- `feed(S, b)` (R105) with the parameter of R93. -/
def feedWith (cfg : Config) (p : ParserState) (b : Byte) : Option (ParserState × Option MidiEvent) :=
  match feedAsm p b with
  | some (p', m) => some (p', m.bind (translateWith cfg))
  | none => none

/-- `feed(S, b)` (R105) of this hardware. -/
def feed (p : ParserState) (b : Byte) : Option (ParserState × Option MidiEvent) :=
  feedWith Config.hardware p b

/-- `feed_chunk(S, bytes)` (R107): the bytes in order, the events in the order they are dispatched. -/
def feedChunk (p : ParserState) (bytes : List Byte) : Option (ParserState × List MidiEvent) :=
  match bytes with
  | [] => some (p, [])
  | b :: rest =>
    match feed p b with
    | none => none
    | some (p', e) => (feedChunk p' rest).map fun r => (r.1, e.toList ++ r.2)

/-- The raw messages a chunk completes (R86), in order. -/
def assembleChunk (p : ParserState) (bytes : List Byte) : Option (ParserState × List RawMessage) :=
  match bytes with
  | [] => some (p, [])
  | b :: rest =>
    match feedAsm p b with
    | none => none
    | some (p', m) => (assembleChunk p' rest).map fun r => (r.1, m.toList ++ r.2)

/-- A stream that the Transport delivers as chunks, each fed whole (R107, R36). -/
def feedChunks (p : ParserState) (chunks : List (List Byte)) : Option (ParserState × List MidiEvent) :=
  match chunks with
  | [] => some (p, [])
  | c :: rest =>
    match feedChunk p c with
    | none => none
    | some (p', es) => (feedChunks p' rest).map fun r => (r.1, es ++ r.2)

/-- The same at the level of raw messages (R86). -/
def assembleChunks (p : ParserState) (chunks : List (List Byte)) : Option (ParserState × List RawMessage) :=
  match chunks with
  | [] => some (p, [])
  | c :: rest =>
    match assembleChunk p c with
    | none => none
    | some (p', ms) => (assembleChunks p' rest).map fun r => (r.1, ms ++ r.2)

end Sys2Proof.Machine
end

