-- ==== Sys2Proof/Machine/Ports.lean ====
section
/-! DEFINITION. The port level (R44, R59, R60, R101, R147): the wires between Assembler and Translator, the wires to the
Output Sink, and the Translator as the look-up table and multiplexer of R101 on those wires. A wire that the present value
does not use carries ANY value (D14, U8): the drivers below take those values as an argument, so a claim about wires holds
for every one of them. -/

namespace Sys2Proof.Machine

/-- The `msg_*` wires (R59). -/
structure MsgWires where
  /-- `msg_valid`. -/
  msgValid : Bool
  /-- `msg_status[7:0]`. -/
  msgStatus : BitVec 8
  /-- `msg_data1[6:0]`. -/
  msgData1 : BitVec 7
  /-- `msg_data2[6:0]`, part of the value only when `msg_has_data2` is 1. -/
  msgData2 : BitVec 7
  /-- `msg_has_data2`. -/
  msgHasData2 : Bool
  deriving DecidableEq, Repr

/-- The `ev_*` wires (R60). -/
structure EventWires where
  /-- `ev_valid`. -/
  evValid : Bool
  /-- `ev_kind[2:0]` (D5). -/
  evKind : BitVec 3
  /-- `ev_channel[3:0]`. -/
  evChannel : BitVec 4
  /-- `ev_p1[6:0]`. -/
  evP1 : BitVec 7
  /-- `ev_p2[6:0]`. -/
  evP2 : BitVec 7
  /-- `ev_bend[13:0]`, two's complement (D6). -/
  evBend : BitVec 14
  deriving DecidableEq, Repr

/-- A message, or none, on the wires (R59); `junk` gives the wires that are not part of the value. -/
def msgWiresOf (junk : MsgWires) (m : Option RawMessage) : MsgWires :=
  match m with
  | none => { junk with msgValid := false }
  | some m =>
    { msgValid := true, msgStatus := m.statusByte, msgData1 := m.data1, msgData2 := m.data2.getD junk.msgData2,
      msgHasData2 := m.data2.isSome }

/-- The message, or none, that the wires carry (R59). -/
def MsgWires.read (w : MsgWires) : Option RawMessage :=
  if w.msgValid then some ⟨w.msgStatus, w.msgData1, if w.msgHasData2 then some w.msgData2 else none⟩ else none

/-- `ev_kind` (R60): the kind of the EVENT, the low three bits of the nibble that names it. -/
def MidiEvent.kind (e : MidiEvent) : BitVec 3 :=
  match e with
  | .noteOff _ _ _ => 0b000#3
  | .noteOn _ _ _ => 0b001#3
  | .controlChange _ _ _ => 0b011#3
  | .programChange _ _ => 0b100#3
  | .channelPressure _ _ => 0b101#3
  | .pitchBend _ _ => 0b110#3

/-- An event, or none, on the wires (R60); `junk` gives the wires that are not part of the value. -/
def eventWiresOf (junk : EventWires) (e : Option MidiEvent) : EventWires :=
  match e with
  | none => { junk with evValid := false }
  | some (.noteOff c n v) => { junk with evValid := true, evKind := 0b000#3, evChannel := c, evP1 := n, evP2 := v }
  | some (.noteOn c n v) => { junk with evValid := true, evKind := 0b001#3, evChannel := c, evP1 := n, evP2 := v }
  | some (.controlChange c k v) => { junk with evValid := true, evKind := 0b011#3, evChannel := c, evP1 := k, evP2 := v }
  | some (.programChange c p) => { junk with evValid := true, evKind := 0b100#3, evChannel := c, evP1 := p }
  | some (.channelPressure c p) => { junk with evValid := true, evKind := 0b101#3, evChannel := c, evP1 := p }
  | some (.pitchBend c v) => { junk with evValid := true, evKind := 0b110#3, evChannel := c, evBend := BitVec.ofInt 14 v }

/-- The event, or none, that the wires carry (R60): a reader looks only at the wires the kind uses; the codes `010` and
`111` are never produced and carry no event. -/
def EventWires.read (w : EventWires) : Option MidiEvent :=
  if !w.evValid then none
  else if w.evKind = 0b000#3 then some (.noteOff w.evChannel w.evP1 w.evP2)
  else if w.evKind = 0b001#3 then some (.noteOn w.evChannel w.evP1 w.evP2)
  else if w.evKind = 0b011#3 then some (.controlChange w.evChannel w.evP1 w.evP2)
  else if w.evKind = 0b100#3 then some (.programChange w.evChannel w.evP1)
  else if w.evKind = 0b101#3 then some (.channelPressure w.evChannel w.evP1)
  else if w.evKind = 0b110#3 then some (.pitchBend w.evChannel w.evBend.toInt)
  else none

/-- `{~data2[6], data2[5:0], data1[6:0]}` (R101, R103). -/
def bendPattern (data1 data2 : Data7) : BitVec 14 :=
  (~~~(data2.extractLsb' 6 1) ++ data2.extractLsb' 0 6) ++ data1

/-- The Translator as a circuit (R101): the LUT is indexed by `status_byte[6:4]` and the length; a dash of its table is a
wire of `junk`. -/
def translatorCircuit (cfg : Config) (junk : EventWires) (w : MsgWires) : EventWires :=
  let base := { junk with evChannel := w.msgStatus.extractLsb' 0 4 }
  let index := w.msgStatus.extractLsb' 4 3
  if !w.msgValid then { base with evValid := false }
  else if w.msgHasData2 then
    if index = 0b000#3 then
      { base with
        evValid := true, evKind := 0b000#3, evP1 := w.msgData1
        evP2 := if cfg.noteOffKeepsReleaseVelocity then w.msgData2 else 0#7 }
    else if index = 0b001#3 then
      { base with
        evValid := true, evKind := if w.msgData2 = 0#7 then 0b000#3 else 0b001#3
        evP1 := w.msgData1, evP2 := w.msgData2 }
    else if index = 0b011#3 then
      { base with evValid := true, evKind := 0b011#3, evP1 := w.msgData1, evP2 := w.msgData2 }
    else if index = 0b110#3 then
      { base with evValid := true, evKind := 0b110#3, evBend := bendPattern w.msgData1 w.msgData2 }
    else { base with evValid := false }
  else
    if index = 0b100#3 then { base with evValid := true, evKind := 0b100#3, evP1 := w.msgData1 }
    else if index = 0b101#3 then { base with evValid := true, evKind := 0b101#3, evP1 := w.msgData1 }
    else { base with evValid := false }

/-- The `msg_*` wires of the step just taken (R44). -/
def State.msgWires (s : State) (junk : MsgWires) : MsgWires :=
  msgWiresOf junk s.message

/-- The `ev_*` wires of the step just taken (R44). -/
def State.eventWires (s : State) (junk : EventWires) : EventWires :=
  eventWiresOf junk s.event

/-- The clock cycle that presents the event of the byte accepted in cycle `accept` (R147): `LATENCY` later, the same for
every byte. No other definition uses it. -/
def presentCycle (accept : Nat) : Nat :=
  accept + Config.latency

end Sys2Proof.Machine
end

