-- ==== Sys2Proof/Machine/Registers.lean ====
section
/-! DEFINITION. The register-level storage of `ParserState` (R23): the seven registers of its table, and the reduced set it
says an implementation may keep. Neither is the machine's state (the abstract record is, R10); they are views, so that the
redundancy and the don't-cares of R23 can be claimed. -/

namespace Sys2Proof.Machine

/-- The registers of R23's table. -/
structure Registers where
  /-- `rs_valid`: 1 when `running_status != none`. -/
  rsValid : Bool
  /-- `rs`: meaningful only when `rs_valid` is 1. -/
  rs : BitVec 8
  /-- `pb_len`. -/
  pbLen : BitVec 2
  /-- `pb[0]`: meaningful only when `pb_len >= 1`. -/
  pb0 : BitVec 8
  /-- `pb[1]`: meaningful only when `pb_len >= 2`. -/
  pb1 : BitVec 8
  /-- `pb[2]`: never meaningful at a step boundary. -/
  pb2 : BitVec 8
  /-- `pend`: the code 3 is never written. -/
  pend : BitVec 2
  deriving DecidableEq, Repr

/-- The `ParserState` that registers hold (R23): the registers outside their validity are not read. R23 says nothing of
patterns that hold no well-formed state: reading them literally, and `pend` 3 as none, is the model's (log 17, DESIGN
CHOICE). -/
def Registers.abstract (r : Registers) : Option ParserState :=
  let pb := [r.pb0, r.pb1, r.pb2].take r.pbLen.toNat
  let rs := if r.rsValid then some r.rs else none
  if h : r.pend.toNat < 3 then some ⟨rs, pb, ⟨r.pend.toNat, h⟩⟩ else none

/-- Registers that hold a `ParserState`; `junk` gives the registers that are not architectural (R23, U8). -/
def Registers.hold (junk : Registers) (p : ParserState) : Registers :=
  { rsValid := p.runningStatus.isSome
    rs := p.runningStatus.getD junk.rs
    pbLen := BitVec.ofNat 2 p.partialBuffer.length
    pb0 := p.partialBuffer[0]?.getD junk.pb0
    pb1 := p.partialBuffer[1]?.getD junk.pb1
    pb2 := p.partialBuffer[2]?.getD junk.pb2
    pend := BitVec.ofNat 2 p.bytesPending.val }

/-- The reduced registers of R23: "keep only `rs_valid`, `rs`, `pend` and one 7-bit data register". -/
structure SlimRegisters where
  /-- `rs_valid`. -/
  rsValid : Bool
  /-- `rs`. -/
  rs : BitVec 8
  /-- `pend`. -/
  pend : BitVec 2
  /-- The one data register: `data1` of a three-byte message in flight. -/
  data : BitVec 7
  deriving DecidableEq, Repr

/-- The `ParserState` that the reduced registers hold: `pb[0]` is `rs`, and `pb_len` is `msglen(rs) - pend` while a message
is in flight (R23, for well-formed states). What other patterns read as is the model's (log 17, DESIGN CHOICE): with
`rs_valid` 0 the fresh state whatever `pend` is, with `pend` 3 otherwise none, and a `pend` that does not fit `rs` a buffer
of `rs` alone. -/
def SlimRegisters.abstract (r : SlimRegisters) : Option ParserState :=
  if !r.rsValid then some ParserState.fresh
  else if h : r.pend.toNat < 3 then
    if r.pend = 0#2 then some ⟨some r.rs, [], 0⟩
    else if msglen r.rs - r.pend.toNat = 2 then some ⟨some r.rs, [r.rs, dataByte r.data], ⟨r.pend.toNat, h⟩⟩
    else some ⟨some r.rs, [r.rs], ⟨r.pend.toNat, h⟩⟩
  else none

/-- Reduced registers that hold a `ParserState`. -/
def SlimRegisters.hold (junk : SlimRegisters) (p : ParserState) : SlimRegisters :=
  { rsValid := p.runningStatus.isSome
    rs := p.runningStatus.getD junk.rs
    pend := BitVec.ofNat 2 p.bytesPending.val
    data := (p.partialBuffer[1]?.map dataValue).getD junk.data }

end Sys2Proof.Machine
end

