-- ==== Sys2Proof/Safety.lean ====
section
/-! DEFINITION. What counts as a safe run: no step stops. The core never raises (R115), so a state is safe as soon as its
`ParserState` is well-formed (R16) and every message that the host puts before the Translator on its own is a message
(R100); a byte, a reset and a cycle without a byte are always acceptable. -/

namespace Sys2Proof.Machine

/-- An input that no step stops on, whatever the state's context. -/
def Input.acceptable (inp : Input) : Bool :=
  match inp with
  | .cycle _ => true
  | .message bytes => (decodeMessage bytes).toOption.isSome

/-- A safe state. -/
def State.safe (s : State) : Bool :=
  s.parser.wf && s.input.all Input.acceptable

/-- The invariant of the machine (R16, R17, R105): the core's state is well-formed, the event on the wires is the
translation of the message on the wires, and it is the last one the Sink was handed. -/
def State.inv (s : State) : Bool :=
  s.parser.wf && s.event == s.message.bind translateMsg && (s.event.isNone || s.event == s.sink.getLast?)

/-- A run of `n` steps goes through. -/
def runsFor (n : Nat) (s : State) : Prop :=
  ∃ t, Host.Core.run Sys2Proof.core n s = .next t

end Sys2Proof.Machine
end

