-- ==== Sys2Proof/Certificates/Slice0/Obligations.lean ====
section
/-! DEFINITION. The statements for the provers. Each docstring says which rule of spec/ it formalises; "derived" ones say
which sentence of the spec, or which log entry, they rest on. A next state is written out whole, so what it does not
mention is its frame. -/

open Sys2Proof Sys2Proof.Machine

/-! ### Encoding -/

/-- Decode and encode agree on every well-formed instruction, with every operand, in every data context that selects
its row (R53, R54, R62). Which words are well-formed messages, those of MSG_OTHER among them, is read from the spec by
inference (log 11, log 12). -/
def Obligations.DecodeOfEncode : Prop :=
  ∀ (ctx : DataContext) (i : Instr), WellFormed i = true → selectedIn ctx i = true → decode ctx (encode i) = .ok i

/-- The other direction: whatever decodes is well-formed, is selected by the context, and is spelled by exactly those
bytes, so each word has one meaning (R53, R62). -/
def Obligations.DecodedHasOneSpelling : Prop :=
  ∀ (ctx : DataContext) (bytes : List Byte) (i : Instr),
    decode ctx bytes = .ok i → encode i = bytes ∧ WellFormed i = true ∧ selectedIn ctx i = true

/-- Every byte is in exactly one row of the byte class map that its context selects (R53): the decoded one, whose `match`
and `mask` of the opcode table hold, and no other. -/
def Obligations.ByteClassesPartition : Prop :=
  ∀ (ctx : DataContext) (b : Byte),
    (tableRow (decodeByte ctx b)).2.2 = 1 ∧
    b.toNat &&& (tableRow (decodeByte ctx b)).2.1 = (tableRow (decodeByte ctx b)).1 ∧
    ∀ j : Instr, (tableRow j).2.2 = 1 → selectedIn ctx j = true → b.toNat &&& (tableRow j).2.1 = (tableRow j).1 →
      tableRow j = tableRow (decodeByte ctx b)

/-- A list of bytes is a message exactly when it has two or three bytes, a status byte and then data bytes (R18, R54,
R100); that no other bytes are one is read from the spec by inference (log 11). -/
def Obligations.MessagesAreStatusThenData : Prop :=
  ∀ bytes : List Byte,
    (∃ i, decodeMessage bytes = .ok i) ↔
      ∃ s data, bytes = s :: data ∧ isStatus s = true ∧ (data.length = 1 ∨ data.length = 2) ∧
        ∀ d ∈ data, isStatus d = false

/-- A few words of the opcode table, written out bit by bit from R53, R54 and R62, decode to the instruction they
stand for. That the data byte's word is the row DATA_ORPHAN is the model's choice, since the three data rows have that
one word and it is read in the context after reset (log 9, DESIGN CHOICE); that the first byte of a message stands
highest in its word is read from the table by inference (log 8, DEDUCED). -/
def Obligations.SampleWordsDecode : Prop :=
  decodeTableWord 8 0b11111000 = some (.rt 0b000#3) ∧
  decodeTableWord 8 0b11110111 = some (.stUnsupSys 0b111#3) ∧
  decodeTableWord 8 0b10010011 = some (.stNoteOn 3#4) ∧
  decodeTableWord 8 0b01000000 = some (.dataOrphan 64#7) ∧
  decodeTableWord 24 0b100100000100000001111111 = some (.noteOn 0#4 64#7 127#7) ∧
  decodeTableWord 24 0b100100000011110000000000 = some (.noteOnV0 0#4 60#7) ∧
  decodeTableWord 24 0b111000000000000001000000 = some (.pitchBend 0#4 0#7 64#7) ∧
  decodeTableWord 16 0b1100000000000101 = some (.progChange 0#4 5#7)

/-! ### Reset, the idle cycle, and how a step runs -/

/-- The reset state is the fresh `ParserState` (R21, which is the spec's own decision D1), which is `Idle` (R14), with no
message and no event on the wires (R135). The empty input and Sink record are the model's (log 1, log 2). -/
def Obligations.ResetIsFreshIdle : Prop :=
  State.reset.parser = ⟨none, [], 0⟩ ∧ State.reset.parser.isIdle = true ∧ State.reset.parser.wf = true ∧
    State.reset.message = none ∧ State.reset.event = none ∧ State.reset.inv = true

/-- A cycle with `rst == 1` loads the fresh state from ANY state, well-formed or not, puts both valid strobes at 0, and
loses the byte offered in the same cycle (R137, the spec's own decision D16). -/
def Obligations.ResetCycleWins : Prop :=
  ∀ (s : State) (c : PortCycle) (rest : List Input), s.input = .cycle c :: rest → c.rst = true →
    step s = .next { s with parser := ⟨none, [], 0⟩, input := rest, message := none, event := none }

/-- Between bytes the core keeps `ParserState` unchanged (R132, derived in the spec): a cycle with `in_valid` 0 changes
nothing but the strobes; that a step with nothing presented is such a cycle is the model's choice (log 3). -/
def Obligations.NoByteKeepsTheState : Prop :=
  ∀ s : State,
    (s.input = [] → step s = .next { s with message := none, event := none }) ∧
    (∀ (c : PortCycle) (rest : List Input), s.input = .cycle c :: rest → c.rst = false → c.inValid = false →
      step s = .next { s with input := rest, message := none, event := none })

/-- A step runs the decoded instruction: an offered byte as the row its class and the state select, a message as the
Translator's row, after the input has moved on by one; bytes that are no message are refused by name. That a message is an input of its own is the model's choice (log 7). -/
def Obligations.StepRunsTheDecodedRow : Prop :=
  ∀ (s : State) (rest : List Input),
    (∀ c : PortCycle, s.input = .cycle c :: rest → c.rst = false → c.inValid = true →
      step s = exec (decodeByte s.parser.dataContext c.inByte) { s with input := rest }) ∧
    (∀ (bytes : List Byte) (i : Instr), s.input = .message bytes :: rest → decodeMessage bytes = .ok i →
      step s = exec i { s with input := rest }) ∧
    (∀ (bytes : List Byte) (e : DecodeError), s.input = .message bytes :: rest → decodeMessage bytes = .error e →
      step s = .refused (.notAMessage e))

/-- The word placed by `withFetchWord` is what the very next step runs, wherever the table word decodes and the state's
data context is the one right after reset. How a word is placed is the model's choice (log 1, log 8, log 9). -/
def Obligations.PlacedWordRunsNext : Prop :=
  ∀ (s : State) (nbits w : Nat) (i : Instr), s.parser.dataContext = .idle → decodeTableWord nbits w = some i →
    step (s.withFetchWord nbits w) = exec i s

/-! ### The byte rows: what each instruction does -/

/-- RT (R71): every byte `0xF8` to `0xFF`, in every well-formed state: nothing written, nothing emitted. -/
def Obligations.RealTimeByteIsIgnored : Prop :=
  ∀ (s : State) (code : BitVec 3), s.parser.wf = true →
    decodeByte s.parser.dataContext (0b11111#5 ++ code) = .rt code ∧
    exec (.rt code) s = .next { s with message := none, event := none }

/-- ST_NOTE_OFF, ST_NOTE_ON, ST_CTRL_CHANGE, ST_PITCH_BEND (R72, R73, R75, R78): latch the byte, make it the whole buffer,
await two data bytes, whatever the three fields held; nothing is emitted. -/
def Obligations.TwoDataStatusLatches : Prop :=
  ∀ (s : State) (ch : Channel), s.parser.wf = true →
    (decodeByte s.parser.dataContext (0x8#4 ++ ch) = .stNoteOff ch ∧
      exec (.stNoteOff ch) s =
        .next { s with parser := ⟨some (0x8#4 ++ ch), [0x8#4 ++ ch], 2⟩, message := none, event := none }) ∧
    (decodeByte s.parser.dataContext (0x9#4 ++ ch) = .stNoteOn ch ∧
      exec (.stNoteOn ch) s =
        .next { s with parser := ⟨some (0x9#4 ++ ch), [0x9#4 ++ ch], 2⟩, message := none, event := none }) ∧
    (decodeByte s.parser.dataContext (0xB#4 ++ ch) = .stCtrlChange ch ∧
      exec (.stCtrlChange ch) s =
        .next { s with parser := ⟨some (0xB#4 ++ ch), [0xB#4 ++ ch], 2⟩, message := none, event := none }) ∧
    (decodeByte s.parser.dataContext (0xE#4 ++ ch) = .stPitchBend ch ∧
      exec (.stPitchBend ch) s =
        .next { s with parser := ⟨some (0xE#4 ++ ch), [0xE#4 ++ ch], 2⟩, message := none, event := none })

/-- ST_PROG_CHANGE and ST_CHAN_PRESSURE (R76, R77): as the other recognised statuses, awaiting one data byte. -/
def Obligations.OneDataStatusLatches : Prop :=
  ∀ (s : State) (ch : Channel), s.parser.wf = true →
    (decodeByte s.parser.dataContext (0xC#4 ++ ch) = .stProgChange ch ∧
      exec (.stProgChange ch) s =
        .next { s with parser := ⟨some (0xC#4 ++ ch), [0xC#4 ++ ch], 1⟩, message := none, event := none }) ∧
    (decodeByte s.parser.dataContext (0xD#4 ++ ch) = .stChanPressure ch ∧
      exec (.stChanPressure ch) s =
        .next { s with parser := ⟨some (0xD#4 ++ ch), [0xD#4 ++ ch], 1⟩, message := none, event := none })

/-- ST_UNSUP_A and ST_UNSUP_SYS (R74, R79): the result is `Idle` from any well-formed state; nothing is emitted. -/
def Obligations.UnsupportedStatusGoesIdle : Prop :=
  ∀ (s : State) (ch : Channel) (code : BitVec 3), s.parser.wf = true →
    (decodeByte s.parser.dataContext (0xA#4 ++ ch) = .stUnsupA ch ∧
      exec (.stUnsupA ch) s = .next { s with parser := ⟨none, [], 0⟩, message := none, event := none }) ∧
    (decodeByte s.parser.dataContext (0b11110#5 ++ code) = .stUnsupSys code ∧
      exec (.stUnsupSys code) s = .next { s with parser := ⟨none, [], 0⟩, message := none, event := none })

/-- DATA_APPEND (R80): with `bytes_pending` 2 the byte is appended and nothing is emitted; with `bytes_pending` 1 the
message whose bytes are the buffer and this byte is emitted, the buffer is emptied, `running_status` is kept, and the
event it translates to, if any, is dispatched in this step (R105). The Sink's record of it is the model's (log 2). -/
def Obligations.DataByteAppends : Prop :=
  ∀ (s : State) (v : Data7), s.parser.wf = true → s.parser.bytesPending ≠ 0 →
    decodeByte s.parser.dataContext (0#1 ++ v) = .dataAppend v ∧
    (s.parser.bytesPending = 2 → exec (.dataAppend v) s =
      .next { s with
        parser := ⟨s.parser.runningStatus, s.parser.partialBuffer ++ [0#1 ++ v], 1⟩, message := none, event := none }) ∧
    (s.parser.bytesPending = 1 → ∃ m : RawMessage, m.bytes = s.parser.partialBuffer ++ [0#1 ++ v] ∧
      exec (.dataAppend v) s =
        .next { s with
          parser := ⟨s.parser.runningStatus, [], 0⟩, message := some m, event := translateMsg m,
          sink := s.sink ++ (translateMsg m).toList })

/-- DATA_RUNNING (R81), its table of net effects: under a latched status of length 3 the message is opened with this
byte, under one of length 2 this byte is a whole message, whose event is dispatched in this step (R105). A latched
status has one of the two lengths. The Sink's record is the model's (log 2). -/
def Obligations.DataByteUnderRunningStatus : Prop :=
  ∀ (s : State) (v : Data7) (r : Byte), s.parser.wf = true → s.parser.bytesPending = 0 → s.parser.runningStatus = some r →
    decodeByte s.parser.dataContext (0#1 ++ v) = .dataRunning v ∧
    (msglen r = 3 ∨ msglen r = 2) ∧
    (msglen r = 3 → exec (.dataRunning v) s =
      .next { s with parser := ⟨some r, [r, 0#1 ++ v], 1⟩, message := none, event := none }) ∧
    (msglen r = 2 → exec (.dataRunning v) s =
      .next { s with
        parser := ⟨some r, [], 0⟩, message := some ⟨r, v, none⟩, event := translateMsg ⟨r, v, none⟩,
        sink := s.sink ++ (translateMsg ⟨r, v, none⟩).toList })

/-- DATA_ORPHAN (R82): discarded, no message, no state change. -/
def Obligations.OrphanDataIsDiscarded : Prop :=
  ∀ (s : State) (v : Data7), s.parser.wf = true → s.parser.bytesPending = 0 → s.parser.runningStatus = none →
    decodeByte s.parser.dataContext (0#1 ++ v) = .dataOrphan v ∧
    exec (.dataOrphan v) s = .next { s with message := none, event := none }

/-! ### The message rows -/

/-- NOTE_ON (R92): the channel of the status byte, the note `data1`, the velocity `data2`. The Assembler's state is
not written (R90). That the Translator runs on a message presented on its own and hands the event to the Sink is the
model's choice (log 7), and so is the Sink's record (log 2): no rule states that clause. -/
def Obligations.NoteOnMessage : Prop :=
  ∀ (s : State) (ch : Channel) (d1 d2 : Data7), d2 ≠ 0#7 →
    decodeMessage [0x9#4 ++ ch, 0#1 ++ d1, 0#1 ++ d2] = .ok (.noteOn ch d1 d2) ∧
    exec (.noteOn ch d1 d2) s = .next { s with
      message := some ⟨0x9#4 ++ ch, d1, some d2⟩, event := some (.noteOn ch d1 d2)
      sink := s.sink ++ [.noteOn ch d1 d2] }

/-- NOTE_OFF (R93): the velocity of this hardware's event is 0 (log 6, DEDUCED); with the parameter of R93 set it
would be `data2`, in this row only. R93 is the spec's own decision D7. That the Translator runs on a message presented
on its own and hands the event to the Sink is the model's choice (log 7), and so is the Sink's record (log 2): no rule
states that clause. -/
def Obligations.NoteOffMessage : Prop :=
  ∀ (s : State) (ch : Channel) (d1 d2 : Data7),
    decodeMessage [0x8#4 ++ ch, 0#1 ++ d1, 0#1 ++ d2] = .ok (.noteOff ch d1 d2) ∧
    exec (.noteOff ch d1 d2) s = .next { s with
      message := some ⟨0x8#4 ++ ch, d1, some d2⟩, event := some (.noteOff ch d1 0#7)
      sink := s.sink ++ [.noteOff ch d1 0#7] } ∧
    (∀ cfg : Config, translateWith cfg ⟨0x8#4 ++ ch, d1, some d2⟩ =
      some (.noteOff ch d1 (if cfg.noteOffKeepsReleaseVelocity then d2 else 0#7))) ∧
    (∀ (cfg : Config) (m : RawMessage), nibbleOf m.statusByte ≠ 0x8#4 → translateWith cfg m = translateMsg m)

/-- NOTE_ON_V0 (R94): a Note-On message with velocity 0 is a NoteOff with velocity 0. That the Translator runs on a
message presented on its own and hands the event to the Sink is the model's choice (log 7), and so is the Sink's
record (log 2): no rule states that clause. -/
def Obligations.NoteOnVelocityZeroMessage : Prop :=
  ∀ (s : State) (ch : Channel) (d1 : Data7),
    decodeMessage [0x9#4 ++ ch, 0#1 ++ d1, 0x00#8] = .ok (.noteOnV0 ch d1) ∧
    exec (.noteOnV0 ch d1) s = .next { s with
      message := some ⟨0x9#4 ++ ch, d1, some 0#7⟩, event := some (.noteOff ch d1 0#7)
      sink := s.sink ++ [.noteOff ch d1 0#7] }

/-- CTRL_CHANGE (R95): controller and value are passed through, no controller number is special. That the Translator
runs on a message presented on its own and hands the event to the Sink is the model's choice (log 7), and so is the
Sink's record (log 2): no rule states that clause. -/
def Obligations.ControlChangeMessage : Prop :=
  ∀ (s : State) (ch : Channel) (d1 d2 : Data7),
    decodeMessage [0xB#4 ++ ch, 0#1 ++ d1, 0#1 ++ d2] = .ok (.ctrlChange ch d1 d2) ∧
    exec (.ctrlChange ch d1 d2) s = .next { s with
      message := some ⟨0xB#4 ++ ch, d1, some d2⟩, event := some (.controlChange ch d1 d2)
      sink := s.sink ++ [.controlChange ch d1 d2] }

/-- PITCH_BEND (R96): `raw = (data2 << 7) | data1`, the value is `raw - 8192`. That the Translator runs on a message
presented on its own and hands the event to the Sink is the model's choice (log 7), and so is the Sink's record (log
2): no rule states that clause. -/
def Obligations.PitchBendMessage : Prop :=
  ∀ (s : State) (ch : Channel) (d1 d2 : Data7),
    decodeMessage [0xE#4 ++ ch, 0#1 ++ d1, 0#1 ++ d2] = .ok (.pitchBend ch d1 d2) ∧
    exec (.pitchBend ch d1 d2) s = .next { s with
      message := some ⟨0xE#4 ++ ch, d1, some d2⟩
      event := some (.pitchBend ch ((((d2.toNat <<< 7) ||| d1.toNat : Nat) : Int) - 8192))
      sink := s.sink ++ [.pitchBend ch ((((d2.toNat <<< 7) ||| d1.toNat : Nat) : Int) - 8192)] }

/-- PROG_CHANGE (R97): the program is `data1`. That the Translator runs on a message presented on its own and hands
the event to the Sink is the model's choice (log 7), and so is the Sink's record (log 2): no rule states that
clause. -/
def Obligations.ProgramChangeMessage : Prop :=
  ∀ (s : State) (ch : Channel) (d1 : Data7),
    decodeMessage [0xC#4 ++ ch, 0#1 ++ d1] = .ok (.progChange ch d1) ∧
    exec (.progChange ch d1) s = .next { s with
      message := some ⟨0xC#4 ++ ch, d1, none⟩, event := some (.programChange ch d1)
      sink := s.sink ++ [.programChange ch d1] }

/-- CHAN_PRESSURE (R98): the pressure is `data1`. That the Translator runs on a message presented on its own and hands
the event to the Sink is the model's choice (log 7), and so is the Sink's record (log 2): no rule states that
clause. -/
def Obligations.ChannelPressureMessage : Prop :=
  ∀ (s : State) (ch : Channel) (d1 : Data7),
    decodeMessage [0xD#4 ++ ch, 0#1 ++ d1] = .ok (.chanPressure ch d1) ∧
    exec (.chanPressure ch d1) s = .next { s with
      message := some ⟨0xD#4 ++ ch, d1, none⟩, event := some (.channelPressure ch d1)
      sink := s.sink ++ [.channelPressure ch d1] }

/-- MSG_OTHER (R99, the spec's own decision D8 that the length is part of the match, log 12): every other combination
is silently dropped. That a message runs through the Translator on its own is the model's choice (log 7), and which
words are MSG_OTHER's is read from the spec by inference (log 11). -/
def Obligations.OtherMessageIsDropped : Prop :=
  ∀ (s : State) (st : Byte) (d1 : Data7) (d2 : Option Data7), WellFormed (.msgOther st d1 d2) = true →
    exec (.msgOther st d1 d2) s = .next { s with message := some ⟨st, d1, d2⟩, event := none }

/-! ### Facts about every instruction -/

/-- A byte in a state that is not well-formed has no meaning (R89, the spec's own decision D10): every byte row that
the state selects is refused, by every step that offers it. That a Real-Time or an unsupported status byte is refused
there too is read from R89 by inference (log 4). -/
def Obligations.IllFormedStateRefuses : Prop :=
  ∀ (s : State) (b : Byte) (rest : List Input), s.parser.wf = false → s.input = .cycle ⟨false, true, b⟩ :: rest →
    exec (decodeByte s.parser.dataContext b) s = .refused .illFormedState ∧ step s = .refused .illFormedState

/-- What every instruction that answers leaves alone, and the dispatch discipline (R105, R106): the event is the
translation of the step's message, and it is handed over once. A message row writes nothing of `ParserState` (R90).
Three clauses are the model's choice: that there is an input list, which an instruction does not touch (log 1), the
Sink's record, which grows by exactly the step's event (log 2), and that a message row's event, for a message
presented on its own, is handed to the Sink (log 7). -/
def Obligations.EveryInstructionDispatchesAtMostOnce : Prop :=
  ∀ (i : Instr) (s t : State), exec i s = .next t →
    t.input = s.input ∧ t.event = t.message.bind translateMsg ∧ t.sink = s.sink ++ t.event.toList ∧
    ((encode i).length ≠ 1 → t.parser = s.parser)

/-- The Translator depends on the message alone (R90: "not on `ParserState`, not on earlier messages"): a message row
answers from any two states, with the same message and the same event. -/
def Obligations.TranslatorIgnoresTheState : Prop :=
  ∀ (i : Instr) (s s' : State), (encode i).length ≠ 1 →
    ∃ t t', exec i s = .next t ∧ exec i s' = .next t' ∧ t.message = t'.message ∧ t.event = t'.event

/-! ### The Assembler as a whole -/

/-- `WF` is preserved by every byte in every well-formed state, and every such byte has a defined effect (R17, R84: both
derived in the spec). -/
def Obligations.EveryByteKeepsWellFormedness : Prop :=
  ∀ (p : ParserState) (b : Byte), p.wf = true → ∃ p' m, feedAsm p b = some (p', m) ∧ p'.wf = true

/-- The well-formed states are exactly the states reachable from reset by feeding bytes (R16, derived in the spec). -/
def Obligations.ReachableIffWellFormed : Prop :=
  ∀ p : ParserState, p.wf = true ↔ ∃ bytes events, feedChunk ParserState.fresh bytes = some (p, events)

/-- The well-formed states number 8385 (R16). -/
def Obligations.WellFormedStatesAreCounted : Prop :=
  ∃ states : List ParserState, states.Nodup ∧ states.length = 8385 ∧ ∀ p, p ∈ states ↔ p.wf = true

/-- Every well-formed state satisfies exactly one of the three predicates of R14. -/
def Obligations.ExactlyOneConceptualState : Prop :=
  ∀ p : ParserState, p.wf = true →
    let awaiting := p.isAwaiting 1 || p.isAwaiting 2
    (p.isIdle = true ∧ awaiting = false ∧ p.isHaveRunningStatus = false) ∨
    (p.isIdle = false ∧ awaiting = true ∧ p.isHaveRunningStatus = false) ∨
    (p.isIdle = false ∧ awaiting = false ∧ p.isHaveRunningStatus = true)

/-- The document's invariant as R15 scopes it (C1), with R12's slots and R11's latched bytes: in flight, the collected
bytes and the pending ones make up the length the latched status implies; slot 0 is that status, and every later slot is
a data byte. -/
def Obligations.BufferAndPendingMakeTheMessage : Prop :=
  ∀ p : ParserState, p.wf = true →
    (p.bytesPending ≠ 0 → ∃ s, p.runningStatus = some s ∧ p.partialBuffer.length + p.bytesPending.val = msglen s ∧
      p.partialBuffer.head? = some s) ∧
    (p.bytesPending = 0 → p.partialBuffer = []) ∧
    (∀ s, p.runningStatus = some s → recognised s = true) ∧
    (∀ d ∈ p.partialBuffer.tail, isStatus d = false)

/-- `running_status` is written only by a status byte below `0xF8` (R11): a data byte and a Real-Time byte keep it, a
recognised status latches itself, an unsupported status clears it, and nothing else happens to it. -/
def Obligations.RunningStatusIsWrittenByStatusBytes : Prop :=
  ∀ (p p' : ParserState) (b : Byte) (m : Option RawMessage), feedAsm p b = some (p', m) →
    p'.runningStatus =
      if recognised b then some b else if unsupported b then none else p.runningStatus

/-- The running-status shorthand (R63, R81): a data byte under a latched status is processed exactly as the two bytes
"latched status, data byte" would be, and the status alone emits nothing. -/
def Obligations.RunningStatusIsReinjection : Prop :=
  ∀ (p : ParserState) (r b : Byte), p.wf = true → p.bytesPending = 0 → p.runningStatus = some r → isStatus b = false →
    ∃ q, feedAsm p r = some (q, none) ∧ feedAsm p b = feedAsm q b

/-- Both spellings of a message give the same raw message and leave the same state (R56): the full one from any
well-formed state, the running-status one with that status latched and no message in flight. -/
def Obligations.BothSpellingsAgree : Prop :=
  ∀ (p : ParserState) (s d1 d2 : Byte), p.wf = true → recognised s = true → isStatus d1 = false → isStatus d2 = false →
    (msglen s = 3 →
      assembleChunk p [s, d1, d2] = some (⟨some s, [], 0⟩, [⟨s, dataValue d1, some (dataValue d2)⟩]) ∧
      assembleChunk ⟨some s, [], 0⟩ [d1, d2] = some (⟨some s, [], 0⟩, [⟨s, dataValue d1, some (dataValue d2)⟩])) ∧
    (msglen s = 2 →
      assembleChunk p [s, d1] = some (⟨some s, [], 0⟩, [⟨s, dataValue d1, none⟩]) ∧
      assembleChunk ⟨some s, [], 0⟩ [d1] = some (⟨some s, [], 0⟩, [⟨s, dataValue d1, none⟩]))

/-- Shape of every emitted message (R85, derived in the spec): a recognised status equal to the `running_status` after the
step, and the length that status implies. -/
def Obligations.EmittedMessageShape : Prop :=
  ∀ (p p' : ParserState) (b : Byte) (m : RawMessage), feedAsm p b = some (p', some m) →
    recognised m.statusByte = true ∧ m.len = msglen m.statusByte ∧ p'.runningStatus = some m.statusByte ∧
    p'.partialBuffer = [] ∧ p'.bytesPending = 0

/-- A message is completed only by a data byte, and exactly when that byte is the last one (R109, R84: derived in the
spec): in `AwaitingData(1)`, or under a latched status of length 2. -/
def Obligations.OnlyTheLastDataByteCompletes : Prop :=
  ∀ (p p' : ParserState) (b : Byte) (m : Option RawMessage), feedAsm p b = some (p', m) →
    (m.isSome = true ↔
      isStatus b = false ∧ (p.bytesPending = 1 ∨ (p.bytesPending = 0 ∧ ∃ r, p.runningStatus = some r ∧ msglen r = 2)))

/-- A status byte below `0xF8` erases whatever was there (R83, R125): its effect is the same from any two well-formed
states, so a message in flight is abandoned without a trace. -/
def Obligations.StatusByteResynchronises : Prop :=
  ∀ (p q : ParserState) (b : Byte), p.wf = true → q.wf = true → isStatus b = true → isRealTime b = false →
    ∃ p', feedAsm p b = some (p', none) ∧ feedAsm q b = some (p', none)

/-- The steps that are idempotent on the state (R38, derived in the spec): a Real-Time byte, an unsupported or a recognised
status byte fed again right after itself, and a data byte in `Idle`. -/
def Obligations.IdempotentBytes : Prop :=
  ∀ (p p' : ParserState) (b : Byte) (m : Option RawMessage), feedAsm p b = some (p', m) →
    (isStatus b = true ∨ p.isIdle = true) → feedAsm p' b = some (p', none)

/-! ### The Facade and whole streams -/

/-- The machine's step on an offered byte is the Facade's `feed` (R105) over the pseudocode of R70: the state it
leaves, the message on the wires, the event dispatched. That the byte comes from an input list whose rest is untouched
is the model's choice (log 1), and so is the Sink's record, which grows by the event (log 2). -/
def Obligations.StepIsTheFacadeFeed : Prop :=
  ∀ (s : State) (b : Byte) (rest : List Input), s.parser.wf = true → s.input = .cycle ⟨false, true, b⟩ :: rest →
    ∃ p' m, feedAsm s.parser b = some (p', m) ∧ feed s.parser b = some (p', m.bind translateMsg) ∧
      step s = .next ⟨p', rest, m, m.bind translateMsg, s.sink ++ (m.bind translateMsg).toList⟩

/-- A run over a stream is `feed_chunk` (R107, R146), and the Sink was handed its events in that order (R108): from
every well-formed state, with nothing else presented. The input list and the Sink's record are the model's choice (log
1, log 2). -/
def Obligations.RunIsFeedChunk : Prop :=
  ∀ (s : State) (bytes : List Byte), s.parser.wf = true → s.input = bytes.map Input.ofByte →
    ∃ p' events t, feedChunk s.parser bytes = some (p', events) ∧
      Host.Core.run Sys2Proof.core bytes.length s = .next t ∧
      t.parser = p' ∧ t.input = [] ∧ t.sink = s.sink ++ events

/-- Feeding two chunks one after the other is feeding them as one (R107). -/
def Obligations.FeedingChunksInTurn : Prop :=
  ∀ (p : ParserState) (xs ys : List Byte),
    feedChunk p [] = some (p, []) ∧
    feedChunk p (xs ++ ys) =
      (feedChunk p xs).bind fun r => (feedChunk r.1 ys).map fun r' => (r'.1, r.2 ++ r'.2)

/-- Chunking invariance (R86): for every byte sequence, every way of splitting it and every starting state, the raw
messages and the state are those of the sequence fed whole; the same of the events (R107). -/
def Obligations.ChunkBoundariesAreInvisible : Prop :=
  ∀ (p : ParserState) (chunks : List (List Byte)),
    assembleChunks p chunks = assembleChunk p chunks.flatten ∧ feedChunks p chunks = feedChunk p chunks.flatten

/-- Real-Time bytes act as if absent from the stream (R58, R71), wherever they stand in it. -/
def Obligations.RealTimeBytesActAsAbsent : Prop :=
  ∀ (p : ParserState) (bytes : List Byte), p.wf = true →
    feedChunk p (bytes.filter fun b => !isRealTime b) = feedChunk p bytes

/-- A System Exclusive block between two unsupported statuses, with Real-Time bytes anywhere in it, yields no event and
leaves `Idle`, whatever was latched before (R79, R126). -/
def Obligations.SystemExclusiveBlockIsDiscarded : Prop :=
  ∀ (p : ParserState) (first last : Byte) (payload : List Byte), p.wf = true → unsupported first = true →
    unsupported last = true → (∀ b ∈ payload, isStatus b = false ∨ isRealTime b = true) →
    feedChunk p (first :: payload ++ [last]) = some (⟨none, [], 0⟩, [])

/-- After a reset at any byte boundary the data bytes that follow are orphans (R136): the run hands nothing to the
Sink and stays in the fresh state. The input list, and the Sink's record with its keeping across a reset, are the
model's choice (log 1, log 2). -/
def Obligations.ResetMidMessageDropsIt : Prop :=
  ∀ (s : State) (bytes : List Byte), (∀ b ∈ bytes, isStatus b = false) →
    s.input = .cycle ⟨true, false, 0#8⟩ :: bytes.map Input.ofByte →
    Host.Core.run Sys2Proof.core (bytes.length + 1) s =
      .next { s with parser := ⟨none, [], 0⟩, input := [], message := none, event := none }

/-- Through the Facade "message completed" and "event dispatched" coincide (R110, derived in the spec): every message the
Assembler emits translates, so the events of a stream are its messages, one for one and in order. -/
def Obligations.EveryCompletedMessageIsDispatched : Prop :=
  ∀ (p : ParserState) (bytes : List Byte), p.wf = true →
    ∃ p' messages events, assembleChunk p bytes = some (p', messages) ∧ feedChunk p bytes = some (p', events) ∧
      messages.map translateMsg = events.map some

/-- A chunk of `k` bytes yields at most `k` events, and at most `k - 1` from the reset state when `k >= 1` (R111, derived in
the spec); both bounds are reached. -/
def Obligations.EventCountIsBounded : Prop :=
  (∀ (p p' : ParserState) (bytes : List Byte) (events : List MidiEvent), feedChunk p bytes = some (p', events) →
    events.length ≤ bytes.length ∧ (p = ParserState.fresh → bytes ≠ [] → events.length + 1 ≤ bytes.length)) ∧
  (∀ k : Nat, ∃ p' events, feedChunk ParserState.fresh (0xC0#8 :: List.replicate k 0x05#8) = some (p', events) ∧
    events.length = k) ∧
  (∀ k : Nat, ∃ p' events, feedChunk ⟨some 0xC0#8, [], 0⟩ (List.replicate k 0x05#8) = some (p', events) ∧
    events.length = k)

/-- What an anomaly changes (R124, derived in the spec), for AN1, AN2, AN3 and AN5 on any well-formed state, and AN4 on any
message: never an event. -/
def Obligations.AnomaliesProduceNoEvent : Prop :=
  (∀ (a : Anomaly) (p : ParserState) (b : Byte), p.wf = true → a.atByte p b = true →
    ∃ p', feed p b = some (p', none) ∧
      (a = .desynchronised → p' = p) ∧
      (a = .unsupportedStatus → p' = ⟨none, [], 0⟩) ∧
      (a = .realTime → p' = p) ∧
      (a = .truncated → p' = if recognised b then ⟨some b, [b], dataBytesOf b⟩ else ⟨none, [], 0⟩)) ∧
  (∀ (m : RawMessage) (s : State), unmapped m = true →
    translatorStep m s = .next { s with message := some m, event := none })

/-! ### The Translator as a whole -/

/-- An event needs the command AND the listed length (R99, the spec's own decision D8): a message with a status byte gives
an event exactly when one of the rows R92 to R98 matches. -/
def Obligations.EventIffARowMatches : Prop :=
  ∀ (cfg : Config) (m : RawMessage), isStatus m.statusByte = true →
    ((translateWith cfg m).isSome = true ↔ eventRow (nibbleOf m.statusByte) m.data2.isSome = true)

/-- The fields of every event the hardware's Translator gives (R19): the channel of the status byte; a NoteOn's
velocity is not 0, a NoteOff's is 0, a pitch-bend value is in the signed 14-bit range. That the velocity is 0 for a
`0x8n` message rests on the spec's own decision D7 and on the parameter's value (R93, log 6, DEDUCED). -/
def Obligations.EventFieldsAreInRange : Prop :=
  ∀ (m : RawMessage) (e : MidiEvent), translateMsg m = some e →
    match e with
    | .noteOn c n v => c = channelOf m.statusByte ∧ n = m.data1 ∧ v ≠ 0#7
    | .noteOff c n v => c = channelOf m.statusByte ∧ n = m.data1 ∧ v = 0#7
    | .controlChange c k _ => c = channelOf m.statusByte ∧ k = m.data1
    | .pitchBend c v => c = channelOf m.statusByte ∧ -8192 ≤ v ∧ v ≤ 8191
    | .programChange c p => c = channelOf m.statusByte ∧ p = m.data1
    | .channelPressure c p => c = channelOf m.statusByte ∧ p = m.data1

/-- The arithmetic of the pitch bend (R102, derived in the spec): the two groups do not overlap, the sum is the product
form, and nothing leaves 14 bits. -/
def Obligations.PitchBendArithmetic : Prop :=
  ∀ d1 d2 : Data7,
    pitchBendRaw d1 d2 = d2.toNat * 128 + d1.toNat ∧ pitchBendRaw d1 d2 ≤ 16383 ∧
    pitchBendRaw d1 d2 = (d2 ++ d1).toNat ∧ -8192 ≤ pitchBendValue d1 d2 ∧ pitchBendValue d1 d2 ≤ 8191

/-- In 14-bit two's complement the value is `raw` with bit 13 inverted (R103, derived in the spec). -/
def Obligations.BendPatternIsTheValue : Prop :=
  ∀ d1 d2 : Data7,
    (bendPattern d1 d2).toInt = pitchBendValue d1 d2 ∧ BitVec.ofInt 14 (pitchBendValue d1 d2) = bendPattern d1 d2

/-- The look-up table and multiplexer of R101 is the Translator (derived in the spec; that the length is part of the
match is the spec's own decision D8, log 12): for either value of the parameter, any message with a status byte or
none, and ANY values on the wires that carry nothing, the event read from the circuit's wires is the translation. -/
def Obligations.CircuitIsTheTranslator : Prop :=
  ∀ (cfg : Config) (junkIn : MsgWires) (junkOut : EventWires) (m : Option RawMessage),
    (∀ x, m = some x → isStatus x.statusByte = true) →
    (translatorCircuit cfg junkOut (msgWiresOf junkIn m)).read = m.bind (translateWith cfg)

/-! ### The port and register views -/

/-- The port forms lose nothing (R59, R60, the spec's own decisions D4 to D6): whatever stands on the unused wires, reading
the wires gives the message or the event back, and the kind of a present event is on `ev_kind`. -/
def Obligations.WiresCarryTheValue : Prop :=
  (∀ (junk : MsgWires) (m : Option RawMessage), (msgWiresOf junk m).read = m) ∧
  (∀ (cfg : Config) (junk : EventWires) (m : RawMessage) (e : MidiEvent), translateWith cfg m = some e →
    (eventWiresOf junk (some e)).read = some e ∧ (eventWiresOf junk (some e)).evKind = e.kind) ∧
  (∀ junk : EventWires, (eventWiresOf junk none).read = none)

/-- The register-level storage of R23 (the spec's own decision D13): the seven registers, and the reduced set, hold
every well-formed state, whatever stands in the registers that are not architectural. Nothing is claimed of register
patterns that hold no well-formed state (log 17). -/
def Obligations.RegistersHoldTheState : Prop :=
  ∀ p : ParserState, p.wf = true →
    (∀ junk : Registers, (junk.hold p).abstract = some p) ∧ (∀ junk : SlimRegisters, (junk.hold p).abstract = some p)

/-! ### Headline: invariant and safety -/

/-- Every step keeps the machine's invariant (R16, R17, R105): well-formed `ParserState`, the event on the wires the
translation of the message on the wires, and that event the last one the Sink was handed (the record is the model's,
log 2; so is the hand-over of a message presented on its own, log 7). -/
def Obligations.StepKeepsTheInvariant : Prop :=
  ∀ s t : State, s.inv = true → step s = .next t → t.inv = true

/-- The core never raises (R115): with a well-formed state and with messages, where any is put before the Translator, that
are messages (log 7), a machine runs for any number of steps, over bytes
of every value, resets and empty cycles, and stays safe at each. -/
def Obligations.SafeStatesNeverStop : Prop :=
  ∀ s : State, s.safe = true →
    (∀ n : Nat, runsFor n s) ∧ (∀ t : State, step s = .next t → t.safe = true)
end

