-- ==== Sys2Proof/Laws/Bits.lean ====
section
/-! SUPPORT. The small facts of the bit fields: a status byte's and a data byte's parts, and what the classes exclude. Each is
over one byte or one pair of fields, so it is checked by enumeration. -/

namespace Sys2Proof

@[simp] theorem isStatus_statusByte (n : Nibble) (c : Channel) : isStatus (statusByte n c) = n.getLsbD 3 := by
  revert n c; decide

@[simp] theorem nibbleOf_statusByte (n : Nibble) (c : Channel) : nibbleOf (statusByte n c) = n := by
  revert n c; decide

@[simp] theorem channelOf_statusByte (n : Nibble) (c : Channel) : channelOf (statusByte n c) = c := by
  revert n c; decide

@[simp] theorem statusByte_nibbleOf_channelOf (b : Byte) : statusByte (nibbleOf b) (channelOf b) = b := by
  revert b; decide

@[simp] theorem isStatus_dataByte (v : Data7) : isStatus (dataByte v) = false := by
  revert v; decide

@[simp] theorem dataValue_dataByte (v : Data7) : dataValue (dataByte v) = v := by
  revert v; decide

/-- Taking the low seven bits of a data byte loses nothing (R59, R87). -/
theorem dataByte_dataValue (b : Byte) : isStatus b = false → dataByte (dataValue b) = b := by
  revert b; decide

/-- `byte >= 0xF8` is the RT row's mask test (R53, R70). -/
theorem isRealTime_eq_mask (b : Byte) : isRealTime b = (b &&& 0xF8#8 == 0xF8#8) := by
  revert b; decide

theorem isStatus_of_isRealTime (b : Byte) : isRealTime b = true → isStatus b = true := by
  revert b; decide

namespace Machine

theorem isStatus_of_recognised (b : Byte) : recognised b = true → isStatus b = true := by
  revert b; decide

theorem not_isRealTime_of_recognised (b : Byte) : recognised b = true → isRealTime b = false := by
  revert b; decide

/-- A recognised status calls for one or two data bytes (R55). -/
theorem recognised_iff_dataBytesOf (b : Byte) : recognised b = true ↔ dataBytesOf b ≠ 0 := by
  revert b; decide

/-- A recognised status has length 2 or 3 (R55). -/
theorem msglen_of_recognised (b : Byte) : recognised b = true → msglen b = 2 ∨ msglen b = 3 := by
  revert b; decide

/-- The command of a status byte is its nibble (R51: "both name the same thing"). -/
theorem command_eq_iff (b : Byte) (n : Nibble) : b &&& 0xF0#8 = statusByte n 0#4 ↔ nibbleOf b = n := by
  revert b n; decide

end Machine

end Sys2Proof
end

