-- ==== Sys2Proof/Laws/State.lean ====
section
/-! SUPPORT. One lemma per field per named update of `State`, true by `rfl`, so that no proof unfolds a record update. -/

namespace Sys2Proof.Machine

variable (s : State) (m : Option RawMessage)

@[simp] theorem State.present_parser : (s.present m).parser = s.parser := rfl
@[simp] theorem State.present_input : (s.present m).input = s.input := rfl
@[simp] theorem State.present_message : (s.present m).message = m := rfl
@[simp] theorem State.present_event : (s.present m).event = m.bind translateMsg := rfl
@[simp] theorem State.present_sink : (s.present m).sink = s.sink ++ (m.bind translateMsg).toList := rfl

/-- Presenting nothing clears both strobes and hands nothing to the Sink. -/
theorem State.present_none : s.present none = { s with message := none, event := none } := by
  simp [State.present]

@[simp] theorem State.quiet_parser : s.quiet.parser = s.parser := rfl
@[simp] theorem State.quiet_input : s.quiet.input = s.input := rfl
@[simp] theorem State.quiet_message : s.quiet.message = none := rfl
@[simp] theorem State.quiet_event : s.quiet.event = none := rfl
@[simp] theorem State.quiet_sink : s.quiet.sink = s.sink := List.append_nil _

@[simp] theorem State.applyReset_parser : s.applyReset.parser = ParserState.fresh := rfl
@[simp] theorem State.applyReset_input : s.applyReset.input = s.input := rfl
@[simp] theorem State.applyReset_message : s.applyReset.message = none := rfl
@[simp] theorem State.applyReset_event : s.applyReset.event = none := rfl
@[simp] theorem State.applyReset_sink : s.applyReset.sink = s.sink := List.append_nil _

@[simp] theorem State.advance_parser : s.advance.parser = s.parser := rfl
@[simp] theorem State.advance_input : s.advance.input = s.input.tail := rfl
@[simp] theorem State.advance_message : s.advance.message = s.message := rfl
@[simp] theorem State.advance_event : s.advance.event = s.event := rfl
@[simp] theorem State.advance_sink : s.advance.sink = s.sink := rfl

variable (nbits w : Nat)

@[simp] theorem State.withFetchWord_parser : (s.withFetchWord nbits w).parser = s.parser := rfl
@[simp] theorem State.withFetchWord_input : (s.withFetchWord nbits w).input = wordInput nbits w :: s.input := rfl
@[simp] theorem State.withFetchWord_message : (s.withFetchWord nbits w).message = s.message := rfl
@[simp] theorem State.withFetchWord_event : (s.withFetchWord nbits w).event = s.event := rfl
@[simp] theorem State.withFetchWord_sink : (s.withFetchWord nbits w).sink = s.sink := rfl
@[simp] theorem State.withFetchWord_advance : (s.withFetchWord nbits w).advance = s := rfl

@[simp] theorem ParserState.fresh_runningStatus : ParserState.fresh.runningStatus = none := rfl
@[simp] theorem ParserState.fresh_partialBuffer : ParserState.fresh.partialBuffer = [] := rfl
@[simp] theorem ParserState.fresh_bytesPending : ParserState.fresh.bytesPending = 0 := rfl
@[simp] theorem ParserState.fresh_wf : ParserState.fresh.wf = true := rfl

variable (b : Byte) (n : Fin 3)

@[simp] theorem latchStatus_runningStatus : (latchStatus b n).runningStatus = some b := rfl
@[simp] theorem latchStatus_partialBuffer : (latchStatus b n).partialBuffer = [b] := rfl
@[simp] theorem latchStatus_bytesPending : (latchStatus b n).bytesPending = n := rfl

end Sys2Proof.Machine
end

