-- ==== Sys2Proof/Laws/Ops.lean ====
section
/-! SUPPORT. What each shared operation can do, said once: the five well-formed cases, when a byte step answers and what it
answers, and that no instruction touches the host's side of the input. Provers cite these instead of unfolding. -/

namespace Sys2Proof.Machine

/-- The five cases of R16, as equations. -/
theorem ParserState.wf_cases {p : ParserState} (h : p.wf = true) :
    p = ParserState.fresh ∨
    (∃ s, recognised s = true ∧ p = ⟨some s, [], 0⟩) ∨
    (∃ s, recognised s = true ∧ msglen s = 3 ∧ p = ⟨some s, [s], 2⟩) ∨
    (∃ s d, recognised s = true ∧ msglen s = 3 ∧ isStatus d = false ∧ p = ⟨some s, [s, d], 1⟩) ∨
    (∃ s, recognised s = true ∧ msglen s = 2 ∧ p = ⟨some s, [s], 1⟩) := by
  obtain ⟨rs, pb, n⟩ := p
  unfold ParserState.wf at h
  split at h <;> simp_all [ParserState.fresh]

/-- A byte step on a well-formed state answers, with the transition's result presented (R105). -/
theorem byteStep_of_wf {s : State} (h : s.parser.wf = true) (f : ParserState → ParserState × Option RawMessage) :
    byteStep s f = .next ({ s with parser := (f s.parser).1 }.present (f s.parser).2) := by
  simp [byteStep, h]

/-- A byte step on any other state is refused (R89). -/
theorem byteStep_of_not_wf {s : State} (h : s.parser.wf = false) (f : ParserState → ParserState × Option RawMessage) :
    byteStep s f = .refused .illFormedState := by
  simp [byteStep, h]

/-- Everything a byte step that answers can do. -/
theorem byteStep_next {s t : State} {f : ParserState → ParserState × Option RawMessage} (h : byteStep s f = .next t) :
    s.parser.wf = true ∧ t = { s with parser := (f s.parser).1 }.present (f s.parser).2 := by
  unfold byteStep at h
  split at h
  · cases h; exact ⟨‹_›, rfl⟩
  · cases h

/-- Everything a data step that answers can do. -/
theorem dataStep_next {s t : State} {ctx : DataContext} {f : ParserState → ParserState × Option RawMessage}
    (h : dataStep s ctx f = .next t) :
    s.parser.dataContext = ctx ∧ s.parser.wf = true ∧
      t = { s with parser := (f s.parser).1 }.present (f s.parser).2 := by
  unfold dataStep at h
  split at h
  · exact ⟨‹_›, byteStep_next h⟩
  · cases h

/-- Everything a call of the Translator can do (R90). -/
theorem translatorStep_next {m : RawMessage} {s t : State} (h : translatorStep m s = .next t) : t = s.present (some m) := by
  cases h; rfl

@[simp] theorem pendingPred_one : pendingPred 1 = 0 := rfl
@[simp] theorem pendingPred_two : pendingPred 2 = 1 := rfl

/-- The append of R80 with two data bytes to come: the byte becomes `data1`, nothing is emitted. -/
theorem appendData_two (rs : Option Byte) (pb : List Byte) (b : Byte) :
    appendData ⟨rs, pb, 2⟩ b = (⟨rs, pb ++ [b], 1⟩, none) := rfl

/-- The append of R80 with one data byte to come: the message is read out and the buffer emptied. -/
theorem appendData_one (rs : Option Byte) (pb : List Byte) (b : Byte) :
    appendData ⟨rs, pb, 1⟩ b = (⟨rs, [], 0⟩, RawMessage.ofBuffer (pb ++ [b])) := rfl

/-- The status path is the identity on a Real-Time byte, the latch on a recognised status, and `Idle` otherwise (R70). -/
theorem statusPath_eq (p : ParserState) (b : Byte) :
    statusPath p b =
      if isRealTime b then p else if recognised b then latchStatus b (dataBytesOf b) else ParserState.fresh := by
  unfold statusPath recognised dataBytesOf
  split
  · rfl
  · by_cases h1 : nibbleOf b = 0xC#4 <;> by_cases h2 : nibbleOf b = 0xD#4 <;> by_cases h3 : nibbleOf b = 0x8#4 <;>
      by_cases h4 : nibbleOf b = 0x9#4 <;> by_cases h5 : nibbleOf b = 0xB#4 <;> by_cases h6 : nibbleOf b = 0xE#4 <;>
      simp_all

/-- Everything an instruction that answers can do: a byte row writes `ParserState` of a well-formed state and presents at
most one message (R105), a message row presents its message and writes nothing of `ParserState` (R90). -/
theorem exec_next_cases {i : Instr} {s t : State} (h : exec i s = .next t) :
    (s.parser.wf = true ∧ ∃ p m, t = { s with parser := p }.present m) ∨ (∃ m, t = s.present (some m)) := by
  have byte : ∀ {f}, byteStep s f = .next t → s.parser.wf = true ∧ ∃ p m, t = { s with parser := p }.present m :=
    fun h => ⟨(byteStep_next h).1, _, _, (byteStep_next h).2⟩
  have data : ∀ {c f}, dataStep s c f = .next t → s.parser.wf = true ∧ ∃ p m, t = { s with parser := p }.present m :=
    fun h => ⟨(dataStep_next h).2.1, _, _, (dataStep_next h).2.2⟩
  have msg : ∀ {m}, translatorStep m s = .next t → ∃ m, t = s.present (some m) := fun h => ⟨_, translatorStep_next h⟩
  cases i
  case rt => simp only [exec, execRt] at h; exact .inl (byte h)
  case stNoteOff => simp only [exec, execStNoteOff] at h; exact .inl (byte h)
  case stNoteOn => simp only [exec, execStNoteOn] at h; exact .inl (byte h)
  case stUnsupA => simp only [exec, execStUnsupA] at h; exact .inl (byte h)
  case stCtrlChange => simp only [exec, execStCtrlChange] at h; exact .inl (byte h)
  case stProgChange => simp only [exec, execStProgChange] at h; exact .inl (byte h)
  case stChanPressure => simp only [exec, execStChanPressure] at h; exact .inl (byte h)
  case stPitchBend => simp only [exec, execStPitchBend] at h; exact .inl (byte h)
  case stUnsupSys => simp only [exec, execStUnsupSys] at h; exact .inl (byte h)
  case dataAppend => exact .inl (data h)
  case dataRunning => exact .inl (data h)
  case dataOrphan => exact .inl (data h)
  case noteOn => exact .inr (msg h)
  case noteOff => exact .inr (msg h)
  case noteOnV0 => exact .inr (msg h)
  case ctrlChange => exact .inr (msg h)
  case pitchBend => exact .inr (msg h)
  case progChange => exact .inr (msg h)
  case chanPressure => exact .inr (msg h)
  case msgOther => exact .inr (msg h)

/-- No instruction reads or moves the host's side of the input: only `step` does (R22, R31). -/
theorem exec_next_input {i : Instr} {s t : State} (h : exec i s = .next t) : t.input = s.input := by
  obtain ⟨_, p, m, rfl⟩ | ⟨m, rfl⟩ := exec_next_cases h <;> rfl

/-- Everything one step can do: a quiet cycle, a reset, an instruction, or a refusal of what is no message. -/
theorem step_cases (s : State) :
    (fetch s = .nothing ∧ step s = .next s.advance.quiet) ∨
    (fetch s = .reset ∧ step s = .next s.advance.applyReset) ∨
    (∃ i, fetch s = .instr i ∧ step s = exec i s.advance) ∨
    (∃ e, fetch s = .rejected e ∧ step s = .refused (.notAMessage e)) := by
  cases h : fetch s <;> simp [step, h]

/-- `fetchInput` on an offered byte (R44). -/
@[simp] theorem fetchInput_ofByte (ctx : DataContext) (b : Byte) :
    fetchInput ctx (Input.ofByte b) = .instr (decodeByte ctx b) := rfl

/-- A run whose first step answers goes on from there. -/
theorem run_succ_of_step {s t : State} (h : step s = .next t) (n : Nat) :
    Host.Core.run Sys2Proof.core (n + 1) s = Host.Core.run Sys2Proof.core n t := by
  have h : Sys2Proof.core.step s = .next t := h
  simp only [Host.Core.run, h]

end Sys2Proof.Machine
end

