-- ==== Sys2Proof/Laws/PerInstr.lean ====
section
/-! SUPPORT. Per instruction: the encoder's bytes lie in the instruction's own row of spec/opcode_table.json (the row's
`match` under its `mask`, and its width), checked for every operand the row admits. -/

namespace Sys2Proof.Laws

/-- The row's `match` under its `mask`, byte by byte in order of arrival, holds of the encoded word of the row's width. -/
def EncodesInRow.Statement (i : Instr) : Prop :=
  let (value, mask, width) := tableRow i
  List.zipWith (fun b m => b &&& m) (encode i) (wordBytes width mask) = wordBytes width value

/-- A data byte under the mask `0x80` is 0. -/
theorem dataByte_mask (v : Data7) : dataByte v &&& 0x80#8 = 0x00#8 := by
  revert v; decide

/-- A status byte under the mask `0xF0` is its command. -/
theorem statusByte_mask (n : Nibble) (c : Channel) : statusByte n c &&& 0xF0#8 = statusByte n 0#4 := by
  revert n c; decide

theorem EncodesInRow.rt (c : BitVec 3) : EncodesInRow.Statement (.rt c) := by
  revert c; unfold EncodesInRow.Statement; decide
theorem EncodesInRow.stUnsupSys (c : BitVec 3) : EncodesInRow.Statement (.stUnsupSys c) := by
  revert c; unfold EncodesInRow.Statement; decide
theorem EncodesInRow.stNoteOff (c : Channel) : EncodesInRow.Statement (.stNoteOff c) :=
  congrArg (· :: []) (statusByte_mask _ c)
theorem EncodesInRow.stNoteOn (c : Channel) : EncodesInRow.Statement (.stNoteOn c) :=
  congrArg (· :: []) (statusByte_mask _ c)
theorem EncodesInRow.stUnsupA (c : Channel) : EncodesInRow.Statement (.stUnsupA c) :=
  congrArg (· :: []) (statusByte_mask _ c)
theorem EncodesInRow.stCtrlChange (c : Channel) : EncodesInRow.Statement (.stCtrlChange c) :=
  congrArg (· :: []) (statusByte_mask _ c)
theorem EncodesInRow.stProgChange (c : Channel) : EncodesInRow.Statement (.stProgChange c) :=
  congrArg (· :: []) (statusByte_mask _ c)
theorem EncodesInRow.stChanPressure (c : Channel) : EncodesInRow.Statement (.stChanPressure c) :=
  congrArg (· :: []) (statusByte_mask _ c)
theorem EncodesInRow.stPitchBend (c : Channel) : EncodesInRow.Statement (.stPitchBend c) :=
  congrArg (· :: []) (statusByte_mask _ c)
theorem EncodesInRow.dataAppend (v : Data7) : EncodesInRow.Statement (.dataAppend v) :=
  congrArg (· :: []) (dataByte_mask v)
theorem EncodesInRow.dataRunning (v : Data7) : EncodesInRow.Statement (.dataRunning v) :=
  congrArg (· :: []) (dataByte_mask v)
theorem EncodesInRow.dataOrphan (v : Data7) : EncodesInRow.Statement (.dataOrphan v) :=
  congrArg (· :: []) (dataByte_mask v)

/-- Three masked bytes, put together. -/
theorem three_masked (c : Channel) (n : Nibble) (d1 d2 : Data7) :
    List.zipWith (fun b m => b &&& m) [statusByte n c, dataByte d1, dataByte d2] [0xF0#8, 0x80#8, 0x80#8] =
      [statusByte n 0#4, 0x00#8, 0x00#8] := by
  simp only [List.zipWith, statusByte_mask, dataByte_mask]

/-- Two masked bytes, put together. -/
theorem two_masked (c : Channel) (n : Nibble) (d1 : Data7) :
    List.zipWith (fun b m => b &&& m) [statusByte n c, dataByte d1] [0xF0#8, 0x80#8] = [statusByte n 0#4, 0x00#8] := by
  simp only [List.zipWith, statusByte_mask, dataByte_mask]

theorem EncodesInRow.noteOn (c : Channel) (d1 d2 : Data7) : EncodesInRow.Statement (.noteOn c d1 d2) :=
  three_masked c _ d1 d2
theorem EncodesInRow.noteOff (c : Channel) (d1 d2 : Data7) : EncodesInRow.Statement (.noteOff c d1 d2) :=
  three_masked c _ d1 d2
theorem EncodesInRow.ctrlChange (c : Channel) (d1 d2 : Data7) : EncodesInRow.Statement (.ctrlChange c d1 d2) :=
  three_masked c _ d1 d2
theorem EncodesInRow.pitchBend (c : Channel) (d1 d2 : Data7) : EncodesInRow.Statement (.pitchBend c d1 d2) :=
  three_masked c _ d1 d2
theorem EncodesInRow.progChange (c : Channel) (d1 : Data7) : EncodesInRow.Statement (.progChange c d1) :=
  two_masked c _ d1
theorem EncodesInRow.chanPressure (c : Channel) (d1 : Data7) : EncodesInRow.Statement (.chanPressure c d1) :=
  two_masked c _ d1
theorem EncodesInRow.noteOnV0 (c : Channel) (d1 : Data7) : EncodesInRow.Statement (.noteOnV0 c d1) :=
  congrArg₂ (fun x y => [x, y, 0x00#8]) (statusByte_mask _ c) (dataByte_mask d1)
theorem EncodesInRow.msgOther (s : Byte) (d1 : Data7) (d2 : Option Data7) :
    EncodesInRow.Statement (.msgOther s d1 d2) := by
  cases d2 <;> simp [EncodesInRow.Statement, tableRow, encode, wordBytes]

end Sys2Proof.Laws
end

