-- ==== Sys2Proof/Tests/Slice0.lean ====
section
/-! SUPPORT. The model's own tests. Expected results are the spec's: the byte class map (30_encoding.md R53), the vectors
V-A-* (single Assembler steps), V-T-* (the Translator) and S1 to S6 of 95_test_vectors.md, cited one by one. Then, for every
statement that has hypotheses, a witness that meets them together. -/

namespace Sys2Proof.Tests

open Sys2Proof.Machine

/-- A machine with the given `ParserState` and nothing else. -/
def at_ (p : ParserState) : State := ⟨p, [], none, none, []⟩

/-- The same with one thing presented. -/
def with_ (p : ParserState) (inp : Input) : State := ⟨p, [inp], none, none, []⟩

/-- What a step left in the core and on the wires. -/
def left (o : Host.Outcome State Fault Refusal) : Option (ParserState × Option RawMessage × Option MidiEvent) :=
  match o with
  | .next t => some (t.parser, t.message, t.event)
  | .fault _ => none
  | .refused _ => none

/-- One byte fed to a state. -/
def fed (p : ParserState) (b : Byte) : Option (ParserState × Option RawMessage × Option MidiEvent) :=
  left (step (with_ p (Input.ofByte b)))

/-- One message put before the Translator, from reset. -/
def translated (bytes : List Byte) : Option (Option MidiEvent) :=
  (left (step (with_ ParserState.fresh (.message bytes)))).map fun r => r.2.2

/-- Why a step refused. -/
def why (o : Host.Outcome State Fault Refusal) : Option Refusal :=
  match o with
  | .next _ => none
  | .fault _ => none
  | .refused r => some r

/-! ### WellFormed refuses each kind of ill-formed term -/

theorem test_noteOn_velocity_zero_ill_formed : WellFormed (.noteOn 0#4 60#7 0#7) = false := by decide
theorem test_msgOther_not_a_status_ill_formed : WellFormed (.msgOther 0x20#8 0#7 none) = false := by decide
theorem test_msgOther_two_byte_row_ill_formed : WellFormed (.msgOther 0xC3#8 0#7 none) = false := by decide
theorem test_msgOther_three_byte_row_ill_formed : WellFormed (.msgOther 0x85#8 0#7 (some 0#7)) = false := by decide
theorem test_data_row_in_another_context : selectedIn .idle (.dataAppend 5#7) = false := by decide

/-! ### Decoding: words written out from the encodings of R53, R54 and the opcode table -/

theorem test_decode_rt : decodeByte .inFlight 0b11111110#8 = .rt 0b110#3 := by decide
theorem test_decode_stNoteOff : decodeByte .idle 0b10000101#8 = .stNoteOff 5#4 := by decide
theorem test_decode_stNoteOn : decodeByte .idle 0b10011111#8 = .stNoteOn 15#4 := by decide
theorem test_decode_stUnsupA : decodeByte .latched 0b10100101#8 = .stUnsupA 5#4 := by decide
theorem test_decode_stCtrlChange : decodeByte .idle 0b10110001#8 = .stCtrlChange 1#4 := by decide
theorem test_decode_stProgChange : decodeByte .idle 0b11000011#8 = .stProgChange 3#4 := by decide
theorem test_decode_stChanPressure : decodeByte .idle 0b11011001#8 = .stChanPressure 9#4 := by decide
theorem test_decode_stPitchBend : decodeByte .idle 0b11100010#8 = .stPitchBend 2#4 := by decide
theorem test_decode_stUnsupSys : decodeByte .idle 0b11110111#8 = .stUnsupSys 7#3 := by decide
theorem test_decode_dataAppend : decodeByte .inFlight 0b01111111#8 = .dataAppend 127#7 := by decide
theorem test_decode_dataRunning : decodeByte .latched 0b01000001#8 = .dataRunning 65#7 := by decide
theorem test_decode_dataOrphan : decodeByte .idle 0b01000000#8 = .dataOrphan 64#7 := by decide
theorem test_decode_noteOn : decodeTableWord 24 0b100111110111111100000001 = some (.noteOn 15#4 127#7 1#7) := by decide
theorem test_decode_noteOff : decodeTableWord 24 0b100001010011110001000000 = some (.noteOff 5#4 60#7 64#7) := by decide
theorem test_decode_noteOnV0 : decodeTableWord 24 0b100110100000000000000000 = some (.noteOnV0 10#4 0#7) := by decide
theorem test_decode_ctrlChange : decodeTableWord 24 0b101100010000011101100100 = some (.ctrlChange 1#4 7#7 100#7) := by decide
theorem test_decode_pitchBend : decodeTableWord 24 0b111000100111111100111111 = some (.pitchBend 2#4 127#7 63#7) := by decide
theorem test_decode_progChange : decodeTableWord 16 0b1100111101111111 = some (.progChange 15#4 127#7) := by decide
theorem test_decode_chanPressure : decodeTableWord 16 0b1101100100100010 = some (.chanPressure 9#4 34#7) := by decide
theorem test_decode_msgOther_short : decodeTableWord 16 0b1001000001000000 = some (.msgOther 0x90#8 64#7 none) := by decide
theorem test_decode_msgOther_long : decodeTableWord 24 0b110000000000010100000110 = some (.msgOther 0xC0#8 5#7 (some 6#7)) := by decide
theorem test_decode_rejects_no_status : decodeMessage [0x40#8, 0x00#8] = .error .statusBitClear := by decide
theorem test_decode_rejects_data_above_127 : decodeMessage [0x90#8, 0x40#8, 0x80#8] = .error .dataOutOfRange := by decide
theorem test_decode_rejects_length : decodeMessage [0x90#8, 0x40#8, 0x00#8, 0x00#8] = .error .wrongLength := by decide

/-! ### The byte rows: one step each -/

/-- V-A-25. -/
theorem test_rt : fed ⟨some 0x90#8, [0x90#8, 0x40#8], 1⟩ 0xFA#8 = some (⟨some 0x90#8, [0x90#8, 0x40#8], 1⟩, none, none) := by
  decide
/-- V-A-26: the unfinished message is dropped. -/
theorem test_stNoteOff : fed ⟨some 0x90#8, [0x90#8, 0x40#8], 1⟩ 0x80#8 = some (⟨some 0x80#8, [0x80#8], 2⟩, none, none) := by
  decide
/-- V-A-4. -/
theorem test_stNoteOn : fed ⟨none, [], 0⟩ 0x9F#8 = some (⟨some 0x9F#8, [0x9F#8], 2⟩, none, none) := by decide
/-- V-A-18. -/
theorem test_stUnsupA : fed ⟨some 0x90#8, [], 0⟩ 0xA5#8 = some (⟨none, [], 0⟩, none, none) := by decide
/-- V-A-6. -/
theorem test_stCtrlChange : fed ⟨none, [], 0⟩ 0xBF#8 = some (⟨some 0xBF#8, [0xBF#8], 2⟩, none, none) := by decide
/-- V-A-20. -/
theorem test_stProgChange : fed ⟨some 0x90#8, [], 0⟩ 0xC3#8 = some (⟨some 0xC3#8, [0xC3#8], 1⟩, none, none) := by decide
/-- V-A-8. -/
theorem test_stChanPressure : fed ⟨none, [], 0⟩ 0xDF#8 = some (⟨some 0xDF#8, [0xDF#8], 1⟩, none, none) := by decide
/-- V-A-9. -/
theorem test_stPitchBend : fed ⟨none, [], 0⟩ 0xE0#8 = some (⟨some 0xE0#8, [0xE0#8], 2⟩, none, none) := by decide
/-- V-A-28. -/
theorem test_stUnsupSys : fed ⟨some 0x90#8, [0x90#8, 0x40#8], 1⟩ 0xF7#8 = some (⟨none, [], 0⟩, none, none) := by decide
/-- V-A-21. -/
theorem test_dataAppend_first : fed ⟨some 0x90#8, [0x90#8], 2⟩ 0x40#8 = some (⟨some 0x90#8, [0x90#8, 0x40#8], 1⟩, none, none) := by
  decide
/-- V-A-22, and the event of S1, byte 3. -/
theorem test_dataAppend_last : fed ⟨some 0x90#8, [0x90#8, 0x40#8], 1⟩ 0x7F#8 =
    some (⟨some 0x90#8, [], 0⟩, some ⟨0x90#8, 0x40#7, some 0x7F#7⟩, some (.noteOn 0#4 64#7 127#7)) := by decide
/-- V-A-14. -/
theorem test_dataRunning_three : fed ⟨some 0x90#8, [], 0⟩ 0x41#8 = some (⟨some 0x90#8, [0x90#8, 0x41#8], 1⟩, none, none) := by
  decide
/-- V-A-15, and the event of V-F-7. -/
theorem test_dataRunning_two : fed ⟨some 0xC0#8, [], 0⟩ 0x06#8 =
    some (⟨some 0xC0#8, [], 0⟩, some ⟨0xC0#8, 6#7, none⟩, some (.programChange 0#4 6#7)) := by decide
/-- S5, V-A-1 and V-A-2's range: an orphan. -/
theorem test_dataOrphan : fed ⟨none, [], 0⟩ 0x40#8 = some (⟨none, [], 0⟩, none, none) := by decide

/-! ### The message rows: one step each -/

/-- V-T-1. -/
theorem test_noteOn : translated [0x9F#8, 0x7F#8, 0x01#8] = some (some (.noteOn 15#4 127#7 1#7)) := by decide
/-- V-T-4. -/
theorem test_noteOff : translated [0x85#8, 0x3C#8, 0x40#8] = some (some (.noteOff 5#4 60#7 0#7)) := by decide
/-- V-T-4, with the parameter of R93 set. -/
theorem test_noteOff_release_velocity :
    translateWith ⟨true⟩ ⟨0x85#8, 0x3C#7, some 0x40#7⟩ = some (.noteOff 5#4 60#7 64#7) := by decide
/-- S2. -/
theorem test_noteOnV0 : translated [0x90#8, 0x3C#8, 0x00#8] = some (some (.noteOff 0#4 60#7 0#7)) := by decide
/-- V-T-11. -/
theorem test_ctrlChange : translated [0xB0#8, 0x78#8, 0x00#8] = some (some (.controlChange 0#4 120#7 0#7)) := by decide
/-- V-T-8. -/
theorem test_pitchBend_minus_one : translated [0xE2#8, 0x7F#8, 0x3F#8] = some (some (.pitchBend 2#4 (-1))) := by decide
/-- V-T-6. -/
theorem test_pitchBend_minimum : translated [0xEF#8, 0x00#8, 0x00#8] = some (some (.pitchBend 15#4 (-8192))) := by decide
/-- V-T-13. -/
theorem test_progChange : translated [0xCF#8, 0x7F#8] = some (some (.programChange 15#4 127#7)) := by decide
/-- V-T-14. -/
theorem test_chanPressure : translated [0xD4#8, 0x00#8] = some (some (.channelPressure 4#4 0#7)) := by decide
/-- V-T-15. -/
theorem test_msgOther_unsupported : translated [0xA0#8, 0x01#8, 0x02#8] = some none := by decide
/-- V-T-20. -/
theorem test_msgOther_wrong_length : translated [0x80#8, 0x01#8] = some none := by decide

/-! ### The host's side, the wires, the registers -/

/-- P5: `rst` in the middle of a message; a byte offered in the same cycle is lost (R137). -/
theorem test_reset_wins : left (step (with_ ⟨some 0x90#8, [0x90#8, 0x3C#8], 1⟩ (.cycle ⟨true, true, 0x64#8⟩))) =
    some (⟨none, [], 0⟩, none, none) := by decide
/-- R89. -/
theorem test_ill_formed_refused : why (step (with_ ⟨some 0xF8#8, [], 0⟩ (Input.ofByte 0xF8#8))) = some .illFormedState := by
  decide
/-- R100, U3. -/
theorem test_out_of_range_refused :
    why (step (with_ ParserState.fresh (.message [0x90#8, 0x80#8, 0x00#8]))) = some (.notAMessage .dataOutOfRange) := by decide
/-- A data row executed where its state condition fails. -/
theorem test_data_row_not_selected : why (exec (.dataAppend 0#7) (at_ ParserState.fresh)) = some .dataRowNotSelected := by decide
/-- A placed word runs as the first instruction after reset. -/
theorem test_placed_message_runs : left (step (State.reset.withFetchWord 24 0xE00040)) =
    some (⟨none, [], 0⟩, some ⟨0xE0#8, 0#7, some 0x40#7⟩, some (.pitchBend 0#4 0)) := by decide
/-- V-T-7's `ev_bend`. -/
theorem test_bend_pattern : bendPattern 0x7F#7 0x7F#7 = 0x1FFF#14 := by decide
/-- V-T-6's wires, from the circuit. -/
theorem test_circuit_bend : (translatorCircuit Config.hardware ⟨false, 0, 0, 0, 0, 0⟩ ⟨true, 0xEF#8, 0#7, 0#7, true⟩) =
    ⟨true, 0b110#3, 0xF#4, 0#7, 0#7, 0x2000#14⟩ := by decide
/-- R23's table for `(0x90, [0x90, 0x40], 1)`. -/
theorem test_registers : Registers.hold ⟨false, 0, 0, 0, 0, 0, 0⟩ ⟨some 0x90#8, [0x90#8, 0x40#8], 1⟩ =
    ⟨true, 0x90#8, 2#2, 0x90#8, 0x40#8, 0#8, 1#2⟩ := by decide

/-! ### Witnesses: each statement's hypotheses are met together -/

theorem witness_DecodeOfEncode : WellFormed (.noteOn 15#4 127#7 1#7) = true ∧ selectedIn .idle (.noteOn 15#4 127#7 1#7) = true ∧
    WellFormed (.msgOther 0xA0#8 127#7 none) = true ∧ selectedIn .latched (.dataRunning 0#7) = true := by decide
theorem witness_DecodedHasOneSpelling :
    decode .idle [0x9F#8, 0x7F#8, 0x01#8] = .ok (.noteOn 15#4 127#7 1#7) ∧ decode .latched [0x7F#8] = .ok (.dataRunning 127#7) := by
  decide
theorem witness_ByteClassesPartition : (tableRow (.rt 7#3)).2.2 = 1 ∧ selectedIn .idle (.rt 7#3) = true ∧
    (0xFF#8).toNat &&& (tableRow (.rt 7#3)).2.1 = (tableRow (.rt 7#3)).1 := by decide
theorem witness_ResetCycleWins : (with_ ⟨some 0xF8#8, [], 2⟩ (.cycle ⟨true, true, 0#8⟩)).input = [.cycle ⟨true, true, 0#8⟩] := by
  decide
theorem witness_NoByteKeepsTheState :
    (at_ ⟨some 0x90#8, [0x90#8], 2⟩).input = [] ∧
    (with_ ⟨some 0x90#8, [0x90#8], 2⟩ (.cycle ⟨false, false, 0x80#8⟩)).input = [.cycle ⟨false, false, 0x80#8⟩] := by decide
theorem witness_StepRunsTheDecodedRow :
    (with_ ParserState.fresh (.cycle ⟨false, true, 0x90#8⟩)).input = [.cycle ⟨false, true, 0x90#8⟩] ∧
    decodeMessage [0xC0#8, 0x05#8] = .ok (.progChange 0#4 5#7) ∧ decodeMessage [] = .error .wrongLength := by decide
theorem witness_PlacedWordRunsNext : State.reset.parser.dataContext = .idle ∧
    decodeTableWord 8 0x7F = some (.dataOrphan 127#7) ∧ decodeTableWord 16 0xC005 = some (.progChange 0#4 5#7) := by decide
/-- For every statement whose hypothesis is a well-formed state: one of each case of R16. -/
theorem witness_well_formed : (at_ ParserState.fresh).parser.wf = true ∧ (at_ ⟨some 0xEF#8, [], 0⟩).parser.wf = true ∧
    (at_ ⟨some 0x80#8, [0x80#8], 2⟩).parser.wf = true ∧ (at_ ⟨some 0xB0#8, [0xB0#8, 0x7F#8], 1⟩).parser.wf = true ∧
    (at_ ⟨some 0xDF#8, [0xDF#8], 1⟩).parser.wf = true := by decide
/-- RealTimeByteIsIgnored, TwoDataStatusLatches, OneDataStatusLatches, UnsupportedStatusGoesIdle: mid-message. -/
theorem witness_status_rows : (at_ ⟨some 0x90#8, [0x90#8, 0x40#8], 1⟩).parser.wf = true := by decide
theorem witness_DataByteAppends_two : (⟨some 0x90#8, [0x90#8], 2⟩ : ParserState).wf = true ∧
    (⟨some 0x90#8, [0x90#8], 2⟩ : ParserState).bytesPending = 2 := by decide
theorem witness_DataByteAppends_one : (⟨some 0x90#8, [0x90#8, 0x40#8], 1⟩ : ParserState).wf = true ∧
    (⟨some 0xC0#8, [0xC0#8], 1⟩ : ParserState).wf = true ∧ (⟨some 0xC0#8, [0xC0#8], 1⟩ : ParserState).bytesPending = 1 := by decide
theorem witness_DataByteUnderRunningStatus : (⟨some 0x80#8, [], 0⟩ : ParserState).wf = true ∧ msglen 0x80#8 = 3 ∧
    (⟨some 0xDF#8, [], 0⟩ : ParserState).wf = true ∧ msglen 0xDF#8 = 2 := by decide
theorem witness_OrphanDataIsDiscarded : ParserState.fresh.wf = true ∧ ParserState.fresh.bytesPending = 0 ∧
    ParserState.fresh.runningStatus = none := by decide
theorem witness_NoteOnMessage : (1#7 : Data7) ≠ 0#7 := by decide
theorem witness_NoteOffMessage : nibbleOf (0x90#8) ≠ 0x8#4 := by decide
theorem witness_OtherMessageIsDropped : WellFormed (.msgOther 0x90#8 64#7 none) = true ∧
    WellFormed (.msgOther 0xFF#8 0#7 (some 0#7)) = true := by decide
theorem witness_IllFormedStateRefuses : (with_ ⟨some 0x90#8, [], 2⟩ (.cycle ⟨false, true, 0#8⟩)).parser.wf = false := by decide
theorem witness_EveryInstructionDispatchesAtMostOnce :
    (exec (.dataAppend 0#7) (at_ ⟨some 0x90#8, [0x90#8, 0x40#8], 1⟩)) =
      .next ⟨⟨some 0x90#8, [], 0⟩, [], some ⟨0x90#8, 0x40#7, some 0#7⟩, some (.noteOff 0#4 0x40#7 0#7), [.noteOff 0#4 0x40#7 0#7]⟩ ∧
    (encode (.progChange 0#4 5#7)).length ≠ 1 := ⟨rfl, by decide⟩
theorem witness_TranslatorIgnoresTheState : (encode (.msgOther 0xA0#8 0#7 none)).length ≠ 1 := by decide
theorem witness_BufferAndPending : (⟨some 0xE0#8, [0xE0#8, 0x7F#8], 1⟩ : ParserState).bytesPending ≠ 0 ∧
    (⟨some 0xE0#8, [], 0⟩ : ParserState).bytesPending = 0 := by decide
/-- RunningStatusIsWrittenByStatusBytes, on each branch: recognised, unsupported, Real-Time, data. -/
theorem witness_RunningStatusIsWrittenByStatusBytes :
    feedAsm ⟨some 0x90#8, [], 0⟩ 0xEF#8 = some (⟨some 0xEF#8, [0xEF#8], 2⟩, none) ∧
    feedAsm ⟨some 0x90#8, [], 0⟩ 0xAF#8 = some (⟨none, [], 0⟩, none) ∧
    feedAsm ⟨some 0x90#8, [], 0⟩ 0xF8#8 = some (⟨some 0x90#8, [], 0⟩, none) ∧
    feedAsm ⟨some 0x90#8, [], 0⟩ 0x00#8 = some (⟨some 0x90#8, [0x90#8, 0x00#8], 1⟩, none) := by decide
theorem witness_RunningStatusIsReinjection : (⟨some 0xC0#8, [], 0⟩ : ParserState).wf = true ∧ isStatus 0x7F#8 = false := by decide
theorem witness_BothSpellingsAgree : recognised 0x9F#8 = true ∧ msglen 0x9F#8 = 3 ∧ recognised 0xC0#8 = true ∧ msglen 0xC0#8 = 2 ∧
    isStatus 0x00#8 = false := by decide
theorem witness_EmittedMessageShape :
    feedAsm ⟨some 0xD2#8, [0xD2#8], 1⟩ 0x00#8 = some (⟨some 0xD2#8, [], 0⟩, some ⟨0xD2#8, 0#7, none⟩) := by decide
theorem witness_OnlyTheLastDataByteCompletes :
    feedAsm ⟨some 0x90#8, [0x90#8], 2⟩ 0x40#8 = some (⟨some 0x90#8, [0x90#8, 0x40#8], 1⟩, none) ∧
    feedAsm ⟨some 0xC0#8, [], 0⟩ 0x40#8 = some (⟨some 0xC0#8, [], 0⟩, some ⟨0xC0#8, 0x40#7, none⟩) := by decide
theorem witness_StatusByteResynchronises : isStatus 0xF7#8 = true ∧ isRealTime 0xF7#8 = false ∧ isStatus 0x80#8 = true ∧
    isRealTime 0x80#8 = false := by decide
theorem witness_IdempotentBytes : feedAsm ParserState.fresh 0x7F#8 = some (ParserState.fresh, none) ∧
    ParserState.fresh.isIdle = true ∧
    feedAsm ⟨some 0x90#8, [0x90#8, 0x40#8], 1⟩ 0xE0#8 = some (⟨some 0xE0#8, [0xE0#8], 2⟩, none) ∧ isStatus 0xE0#8 = true := by decide
theorem witness_StepIsTheFacadeFeed :
    (with_ ⟨some 0x90#8, [0x90#8, 0x40#8], 1⟩ (Input.ofByte 0x7F#8)).input = [.cycle ⟨false, true, 0x7F#8⟩] := by decide
theorem witness_RunIsFeedChunk : (with_ ParserState.fresh (Input.ofByte 0x90#8)).input = [0x90#8].map Input.ofByte := by decide
theorem witness_SystemExclusiveBlockIsDiscarded : unsupported 0xF0#8 = true ∧ unsupported 0xF7#8 = true ∧
    ∀ b ∈ [0x00#8, 0xF8#8, 0x7F#8, 0xFF#8], isStatus b = false ∨ isRealTime b = true := by decide
theorem witness_ResetMidMessageDropsIt : (∀ b ∈ [0x00#8, 0x7F#8], isStatus b = false) ∧
    ({ at_ ⟨some 0x90#8, [0x90#8, 0x3C#8], 1⟩ with
        input := [.cycle ⟨true, false, 0#8⟩, Input.ofByte 0x00#8, Input.ofByte 0x7F#8] } : State).input =
      .cycle ⟨true, false, 0#8⟩ :: [0x00#8, 0x7F#8].map Input.ofByte := by decide
theorem witness_EventCountIsBounded :
    feedChunk ParserState.fresh [0xC0#8, 0x05#8] = some (⟨some 0xC0#8, [], 0⟩, [.programChange 0#4 5#7]) := by decide
/-- AnomaliesProduceNoEvent: one instance of each class (R116 to R120). -/
theorem witness_AnomaliesProduceNoEvent :
    Anomaly.atByte .desynchronised ParserState.fresh 0x40#8 = true ∧
    Anomaly.atByte .unsupportedStatus ⟨some 0x90#8, [], 0⟩ 0xF0#8 = true ∧
    Anomaly.atByte .realTime ⟨some 0x90#8, [0x90#8], 2⟩ 0xF8#8 = true ∧
    Anomaly.atByte .truncated ⟨some 0x90#8, [0x90#8, 0x40#8], 1⟩ 0x80#8 = true ∧
    Anomaly.atByte .truncated ⟨some 0x90#8, [0x90#8, 0x40#8], 1⟩ 0xF7#8 = true ∧
    unmapped ⟨0xA0#8, 0x3C#7, some 0x40#7⟩ = true := by decide
theorem witness_EventIffARowMatches : isStatus 0x80#8 = true ∧ isStatus 0xFF#8 = true := by decide
/-- EventFieldsAreInRange: one event of each of the six variants. -/
theorem witness_EventFieldsAreInRange :
    translateMsg ⟨0x90#8, 0#7, some 1#7⟩ = some (.noteOn 0#4 0#7 1#7) ∧
    translateMsg ⟨0x80#8, 0#7, some 127#7⟩ = some (.noteOff 0#4 0#7 0#7) ∧
    translateMsg ⟨0xB0#8, 0#7, some 0#7⟩ = some (.controlChange 0#4 0#7 0#7) ∧
    translateMsg ⟨0xE0#8, 127#7, some 127#7⟩ = some (.pitchBend 0#4 8191) ∧
    translateMsg ⟨0xC0#8, 0#7, none⟩ = some (.programChange 0#4 0#7) ∧
    translateMsg ⟨0xD0#8, 0#7, none⟩ = some (.channelPressure 0#4 0#7) := by decide
theorem witness_CircuitIsTheTranslator :
    ∀ x, some (⟨0x9F#8, 0#7, some 0#7⟩ : RawMessage) = some x → isStatus x.statusByte = true := by
  intro x h; cases h; decide
theorem witness_WiresCarryTheValue :
    translateWith ⟨true⟩ ⟨0xE0#8, 0#7, some 0#7⟩ = some (.pitchBend 0#4 (-8192)) := by decide
theorem witness_StepKeepsTheInvariant : (with_ ⟨some 0x90#8, [0x90#8, 0x40#8], 1⟩ (Input.ofByte 0x7F#8)).inv = true ∧
    (left (step (with_ ⟨some 0x90#8, [0x90#8, 0x40#8], 1⟩ (Input.ofByte 0x7F#8)))).isSome = true := by decide
theorem witness_SafeStatesNeverStop :
    ({ State.reset with
        input := [Input.ofByte 0xFF#8, .message [0xA0#8, 0x00#8], .cycle ⟨true, true, 0#8⟩, .cycle ⟨false, false, 0#8⟩] } : State).safe =
      true := by decide

end Sys2Proof.Tests
end

section
/-! PROOFS. How a step runs (R9): what `fetch` reads from the first input, what `advance` leaves, and what `step` answers
for each; from these, O9. -/

namespace Sys2Proof.Machine

variable {s : State} {rest : List Input}

/-- Only the first input and the data context of the state are read (R22, R31). -/
theorem fetch_of_input_cons {inp : Input} (h : s.input = inp :: rest) :
    fetch s = fetchInput s.parser.dataContext inp := by
  simp only [fetch, h]

/-- The input moves on by exactly the one that was read (R22, R31). -/
theorem State.advance_of_input_cons {inp : Input} (h : s.input = inp :: rest) :
    s.advance = { s with input := rest } := by
  simp only [State.advance, h, List.tail_cons]

/-- A fetched instruction runs on the input that is left (R9). -/
theorem step_of_fetch_instr {i : Instr} (h : fetch s = .instr i) : step s = exec i s.advance := by
  simp only [step, h]

/-- Bytes the Translator rejects are refused (R100, U3). -/
theorem step_of_fetch_rejected {e : DecodeError} (h : fetch s = .rejected e) :
    step s = .refused (.notAMessage e) := by
  simp only [step, h]

/-- An offered byte is the row that its class and the data context select (R53, R62). -/
theorem fetchInput_cycle_of_inValid {c : PortCycle} (ctx : DataContext) (hrst : c.rst = false)
    (hvalid : c.inValid = true) : fetchInput ctx (.cycle c) = .instr (decodeByte ctx c.inByte) := by
  simp [fetchInput, hrst, hvalid]

/-- A message is the Translator's row for its bytes, in every data context (R90). -/
theorem fetchInput_message_of_ok {bytes : List Byte} {i : Instr} (ctx : DataContext)
    (h : decodeMessage bytes = .ok i) : fetchInput ctx (.message bytes) = .instr i := by
  simp only [fetchInput, h]

theorem fetchInput_message_of_error {bytes : List Byte} {e : DecodeError} (ctx : DataContext)
    (h : decodeMessage bytes = .error e) : fetchInput ctx (.message bytes) = .rejected e := by
  simp only [fetchInput, h]

/-- When the first input reads as an instruction, the step runs it on the rest of the input. -/
theorem step_of_input_cons_instr {inp : Input} {i : Instr} (hin : s.input = inp :: rest)
    (hf : fetchInput s.parser.dataContext inp = .instr i) : step s = exec i { s with input := rest } := by
  rw [step_of_fetch_instr ((fetch_of_input_cons hin).trans hf), State.advance_of_input_cons hin]

/-- Settles O9: in each of the three cases the first input alone fixes what is fetched, and the step follows. -/
theorem stepRunsTheDecodedRow : Obligations.StepRunsTheDecodedRow := by
  intro s rest
  refine ⟨fun c hin hrst hvalid => ?byte, fun bytes i hin hok => ?message, fun bytes e hin herr => ?notAMessage⟩
  case byte => exact step_of_input_cons_instr hin (fetchInput_cycle_of_inValid _ hrst hvalid)
  case message => exact step_of_input_cons_instr hin (fetchInput_message_of_ok _ hok)
  case notAMessage =>
    exact step_of_fetch_rejected ((fetch_of_input_cons hin).trans (fetchInput_message_of_error _ herr))

end Sys2Proof.Machine
end

section
/-! PROOFS. Well-formedness (R16): its five cases read as equations, and that every transition of the Assembler keeps it
(R17). From these O29, and for the machine's step O58 and O6. -/

namespace Sys2Proof.Machine

/-! ### The cases of R16 -/

@[simp] theorem ParserState.wf_latched (r : Byte) : (⟨some r, [], 0⟩ : ParserState).wf = recognised r := rfl

@[simp] theorem ParserState.wf_awaiting_two (r : Byte) :
    (⟨some r, [r], 2⟩ : ParserState).wf = (recognised r && msglen r == 3) := by
  simp [ParserState.wf]

@[simp] theorem ParserState.wf_awaiting_last (r d : Byte) :
    (⟨some r, [r, d], 1⟩ : ParserState).wf = (recognised r && msglen r == 3 && !isStatus d) := by
  simp [ParserState.wf]

@[simp] theorem ParserState.wf_awaiting_only (r : Byte) :
    (⟨some r, [r], 1⟩ : ParserState).wf = (recognised r && msglen r == 2) := by
  simp [ParserState.wf]

/-- A latched status of a well-formed state is a recognised one (R11). -/
theorem ParserState.recognised_of_wf {p : ParserState} {r : Byte} (h : p.wf = true) (hr : p.runningStatus = some r) :
    recognised r = true := by
  obtain rfl | ⟨_, hs, rfl⟩ | ⟨_, hs, _, rfl⟩ | ⟨_, _, hs, _, _, rfl⟩ | ⟨_, hs, _, rfl⟩ := p.wf_cases h
  · cases hr
  all_goals cases hr; exact hs

/-! ### The transitions keep it -/

/-- Latching a status with the number of data bytes it calls for, where that is not 0 (R72, R73, R75 to R78). -/
theorem latchStatus_wf {b : Byte} {n : Fin 3} (hn : dataBytesOf b = n) (h0 : n ≠ 0) : (latchStatus b n).wf = true := by
  have hrec : recognised b = true := (recognised_iff_dataBytesOf b).mpr (hn ▸ h0)
  have hlen : msglen b = n.val + 1 := by simp [msglen, hn, h0]
  match n with
  | 1 => simp [latchStatus, hrec, hlen]
  | 2 => simp [latchStatus, hrec, hlen]

/-- The status path (R70). -/
theorem statusPath_wf {p : ParserState} (h : p.wf = true) (b : Byte) : (statusPath p b).wf = true := by
  rw [statusPath_eq]
  split
  · exact h
  · split
    · exact latchStatus_wf rfl ((recognised_iff_dataBytesOf b).mp ‹_›)
    · exact ParserState.fresh_wf

/-- The append of a data byte (R80). -/
theorem appendData_wf {p : ParserState} {b : Byte} (h : p.wf = true) (hb : isStatus b = false) :
    (appendData p b).1.wf = true := by
  obtain rfl | ⟨r, hr, rfl⟩ | ⟨r, hr, hlen, rfl⟩ | ⟨r, d, hr, hlen, _, rfl⟩ | ⟨r, hr, hlen, rfl⟩ := p.wf_cases h
  case inl => rfl
  case inr.inl => exact hr
  case inr.inr.inl => simp [appendData_two, hr, hlen, hb]
  case inr.inr.inr.inl => simp [appendData_one, hr]
  case inr.inr.inr.inr => simp [appendData_one, hr]

/-- The running-status re-entry (R81): the status path, then the append. -/
theorem reinject_wf {p : ParserState} {b : Byte} (h : p.wf = true) (hb : isStatus b = false) :
    (reinject p b).1.wf = true := by
  unfold reinject
  split
  · exact appendData_wf (statusPath_wf h _) hb
  · exact h

/-- The data path of R70 is the append of R80 in flight, and the re-entry of R81 (or the orphan of R82) otherwise. -/
theorem dataPath_eq (p : ParserState) (b : Byte) :
    dataPath p b = if p.bytesPending = 0 then reinject p b else appendData p b := rfl

/-- The data path (R70). -/
theorem dataPath_wf {p : ParserState} {b : Byte} (h : p.wf = true) (hb : isStatus b = false) :
    (dataPath p b).1.wf = true := by
  rw [dataPath_eq]
  split
  · exact reinject_wf h hb
  · exact appendData_wf h hb

/-! ### The Assembler's step -/

theorem feedAsm_of_isStatus {p : ParserState} {b : Byte} (h : p.wf = true) (hb : isStatus b = true) :
    feedAsm p b = some (statusPath p b, none) := by
  simp [feedAsm, h, hb]

theorem feedAsm_of_data {p : ParserState} {b : Byte} (h : p.wf = true) (hb : isStatus b = false) :
    feedAsm p b = some (dataPath p b) := by
  simp [feedAsm, h, hb]

/-- Everything a step of the Assembler that answers can do (R70, R89). -/
theorem feedAsm_cases {p p' : ParserState} {b : Byte} {m : Option RawMessage} (h : feedAsm p b = some (p', m)) :
    p.wf = true ∧
      ((isStatus b = true ∧ p' = statusPath p b ∧ m = none) ∨ (isStatus b = false ∧ (p', m) = dataPath p b)) := by
  unfold feedAsm at h
  split at h
  case isTrue hwf =>
    split at h
    case isTrue hb => cases h; exact ⟨hwf, .inl ⟨hb, rfl, rfl⟩⟩
    case isFalse hb => exact ⟨hwf, .inr ⟨Bool.eq_false_iff.mpr hb, (Option.some.inj h).symm⟩⟩
  case isFalse => cases h

/-- Settles O29: a status byte takes the status path and a data byte the data path, and both keep `WF`. -/
theorem everyByteKeepsWellFormedness : Obligations.EveryByteKeepsWellFormedness := by
  intro p b h
  cases hb : isStatus b
  case true => exact ⟨_, _, feedAsm_of_isStatus h hb, statusPath_wf h b⟩
  case false => exact ⟨_, _, feedAsm_of_data h hb, dataPath_wf h hb⟩

/-! ### The machine's step -/

/-- A byte step keeps well-formedness when its transition does. -/
theorem byteStep_next_wf {s t : State} {f : ParserState → ParserState × Option RawMessage}
    (hf : ∀ p, p.wf = true → (f p).1.wf = true) (h : byteStep s f = .next t) : t.parser.wf = true := by
  obtain ⟨hwf, rfl⟩ := byteStep_next h
  exact hf _ hwf

/-- A byte step whose transition writes one state, whatever it found, leaves that state (R70: all three fields). -/
theorem byteStep_const_next_wf {s t : State} {q : ParserState} {m : Option RawMessage} (hq : q.wf = true)
    (h : byteStep s (fun _ => (q, m)) = .next t) : t.parser.wf = true :=
  byteStep_next_wf (fun _ _ => hq) h

/-- A data step keeps well-formedness when its transition does. -/
theorem dataStep_next_wf {s t : State} {ctx : DataContext} {f : ParserState → ParserState × Option RawMessage}
    (hf : ∀ p, p.wf = true → (f p).1.wf = true) (h : dataStep s ctx f = .next t) : t.parser.wf = true := by
  obtain ⟨_, hwf, rfl⟩ := dataStep_next h
  exact hf _ hwf

/-- A call of the Translator writes nothing of `ParserState` (R90). -/
theorem translatorStep_next_wf {m : RawMessage} {s t : State} (hwf : s.parser.wf = true)
    (h : translatorStep m s = .next t) : t.parser.wf = true := by
  rw [translatorStep_next h]; exact hwf

/-- Every instruction that answers keeps `ParserState` well-formed (R17). -/
theorem exec_next_wf {i : Instr} {s t : State} (hwf : s.parser.wf = true) (h : exec i s = .next t) :
    t.parser.wf = true := by
  cases i
  case rt => exact byteStep_next_wf (f := fun p => (p, none)) (fun _ hp => hp) h
  case stNoteOff => exact byteStep_const_next_wf (latchStatus_wf (by simp [dataBytesOf]) (by decide)) h
  case stNoteOn => exact byteStep_const_next_wf (latchStatus_wf (by simp [dataBytesOf]) (by decide)) h
  case stCtrlChange => exact byteStep_const_next_wf (latchStatus_wf (by simp [dataBytesOf]) (by decide)) h
  case stPitchBend => exact byteStep_const_next_wf (latchStatus_wf (by simp [dataBytesOf]) (by decide)) h
  case stProgChange => exact byteStep_const_next_wf (latchStatus_wf (by simp [dataBytesOf]) (by decide)) h
  case stChanPressure => exact byteStep_const_next_wf (latchStatus_wf (by simp [dataBytesOf]) (by decide)) h
  case stUnsupA => exact byteStep_const_next_wf ParserState.fresh_wf h
  case stUnsupSys => exact byteStep_const_next_wf ParserState.fresh_wf h
  case dataAppend v => exact dataStep_next_wf (fun _ hp => appendData_wf hp (isStatus_dataByte v)) h
  case dataRunning v => exact dataStep_next_wf (fun _ hp => reinject_wf hp (isStatus_dataByte v)) h
  case dataOrphan => exact dataStep_next_wf (fun _ hp => hp) h
  case noteOn => exact translatorStep_next_wf hwf h
  case noteOff => exact translatorStep_next_wf hwf h
  case noteOnV0 => exact translatorStep_next_wf hwf h
  case ctrlChange => exact translatorStep_next_wf hwf h
  case pitchBend => exact translatorStep_next_wf hwf h
  case progChange => exact translatorStep_next_wf hwf h
  case chanPressure => exact translatorStep_next_wf hwf h
  case msgOther => exact translatorStep_next_wf hwf h

/-- Every step that answers keeps `ParserState` well-formed (R17). -/
theorem step_next_wf {s t : State} (hwf : s.parser.wf = true) (h : step s = .next t) : t.parser.wf = true := by
  obtain ⟨_, hstep⟩ | ⟨_, hstep⟩ | ⟨i, _, hstep⟩ | ⟨e, _, hstep⟩ := step_cases s <;> rw [hstep] at h
  · cases h; exact hwf
  · cases h; exact ParserState.fresh_wf
  · exact exec_next_wf (s := s.advance) hwf h
  · cases h

/-- Every step that answers ends by presenting a message or none (R105, R106). -/
theorem step_next_present {s t : State} (h : step s = .next t) : ∃ s' m, t = State.present s' m := by
  obtain ⟨_, hstep⟩ | ⟨_, hstep⟩ | ⟨i, _, hstep⟩ | ⟨e, _, hstep⟩ := step_cases s <;> rw [hstep] at h
  · cases h; exact ⟨_, _, rfl⟩
  · cases h; exact ⟨_, _, rfl⟩
  · obtain ⟨_, p, m, rfl⟩ | ⟨m, rfl⟩ := exec_next_cases h <;> exact ⟨_, _, rfl⟩
  · cases h

/-- What is presented agrees with itself, so the invariant is well-formedness (R105). -/
theorem State.present_inv (s : State) (m : Option RawMessage) : (s.present m).inv = s.parser.wf := by
  cases he : m.bind translateMsg <;> simp [State.inv, he]

theorem State.wf_of_inv {s : State} (h : s.inv = true) : s.parser.wf = true := by
  simp only [State.inv, Bool.and_eq_true] at h
  exact h.1.1

/-- Settles O58: a step keeps `WF`, and the outputs it presents agree whatever stood on the wires before. -/
theorem stepKeepsTheInvariant : Obligations.StepKeepsTheInvariant := by
  intro s t hinv hstep
  have hwf : t.parser.wf = true := step_next_wf (State.wf_of_inv hinv) hstep
  obtain ⟨s', m, rfl⟩ := step_next_present hstep
  rwa [State.present_inv]

/-- Settles O6: every clause is read off the reset state. -/
theorem resetIsFreshIdle : Obligations.ResetIsFreshIdle :=
  ⟨rfl, rfl, ParserState.fresh_wf, rfl, rfl, rfl⟩

end Sys2Proof.Machine
end

section
/-! PROOFS. What a well-formed `ParserState` is (R11, R12, R14 to R16, R23), one case of R16 at a time: O32, O33,
O57, and what a byte does to `running_status`: O34. -/

namespace Sys2Proof.Machine

/-- Settles O32: the conceptual state of each case of R16 is read off its three fields. -/
theorem exactlyOneConceptualState : Obligations.ExactlyOneConceptualState := by
  intro p h
  obtain rfl | ⟨r, _, rfl⟩ | ⟨r, _, _, rfl⟩ | ⟨r, d, _, _, _, rfl⟩ | ⟨r, _, _, rfl⟩ := p.wf_cases h
  case inl => exact .inl ⟨rfl, rfl, rfl⟩
  case inr.inl => exact .inr (.inr ⟨rfl, rfl, rfl⟩)
  all_goals exact .inr (.inl ⟨rfl, rfl, rfl⟩)

/-- Settles O33: in each case of R16 the buffer, the count and the latched status are known. -/
theorem bufferAndPendingMakeTheMessage : Obligations.BufferAndPendingMakeTheMessage := by
  intro p h
  obtain rfl | ⟨r, hr, rfl⟩ | ⟨r, hr, hlen, rfl⟩ | ⟨r, d, hr, hlen, hd, rfl⟩ | ⟨r, hr, hlen, rfl⟩ := p.wf_cases h
  case inl => simp
  case inr.inl => simp [hr]
  case inr.inr.inl => simp [hr, hlen]
  case inr.inr.inr.inl => simp [hr, hlen, hd]
  case inr.inr.inr.inr => simp [hr, hlen]

/-- Settles O57: in each case of R16 the registers that are not architectural are not read back. -/
theorem registersHoldTheState : Obligations.RegistersHoldTheState := by
  intro p h
  obtain rfl | ⟨r, hr, rfl⟩ | ⟨r, hr, hlen, rfl⟩ | ⟨r, d, hr, hlen, hd, rfl⟩ | ⟨r, hr, hlen, rfl⟩ := p.wf_cases h
  case inl => exact ⟨fun _ => rfl, fun _ => rfl⟩
  case inr.inl => exact ⟨fun _ => rfl, fun _ => rfl⟩
  case inr.inr.inl =>
    exact ⟨fun _ => rfl, fun _ => by simp [SlimRegisters.abstract, SlimRegisters.hold, hlen]⟩
  case inr.inr.inr.inl =>
    refine ⟨fun _ => rfl, fun _ => ?_⟩
    simp [SlimRegisters.abstract, SlimRegisters.hold, hlen, dataByte_dataValue d hd]
  case inr.inr.inr.inr =>
    exact ⟨fun _ => rfl, fun _ => by simp [SlimRegisters.abstract, SlimRegisters.hold, hlen]⟩

/-! ### `running_status` -/

theorem unsupported_eq_false_of_isRealTime {b : Byte} (h : isRealTime b = true) : unsupported b = false := by
  simp [unsupported, h]

theorem recognised_eq_false_of_isRealTime {b : Byte} (h : isRealTime b = true) : recognised b = false := by
  refine Bool.eq_false_iff.mpr fun hr => ?_
  simp [not_isRealTime_of_recognised b hr] at h

theorem recognised_eq_false_of_data {b : Byte} (h : isStatus b = false) : recognised b = false := by
  refine Bool.eq_false_iff.mpr fun hr => ?_
  simp [isStatus_of_recognised b hr] at h

/-- The append writes the other two fields only (R80). -/
@[simp] theorem appendData_runningStatus (p : ParserState) (b : Byte) :
    (appendData p b).1.runningStatus = p.runningStatus := by
  simp only [appendData]
  split <;> rfl

/-- The status path on a recognised status is the latch (R72, R73, R75 to R78). -/
theorem statusPath_of_recognised (p : ParserState) {b : Byte} (h : recognised b = true) :
    statusPath p b = latchStatus b (dataBytesOf b) := by
  simp [statusPath_eq, not_isRealTime_of_recognised b h, h]

/-- The re-entry latches the status that is latched already (R81). -/
theorem reinject_runningStatus {p : ParserState} (h : p.wf = true) (b : Byte) :
    (reinject p b).1.runningStatus = p.runningStatus := by
  unfold reinject
  split
  case h_1 r hr => simp [statusPath_of_recognised p (ParserState.recognised_of_wf h hr), hr]
  case h_2 => rfl

theorem dataPath_runningStatus {p : ParserState} (h : p.wf = true) (b : Byte) :
    (dataPath p b).1.runningStatus = p.runningStatus := by
  rw [dataPath_eq]
  split
  · exact reinject_runningStatus h b
  · exact appendData_runningStatus p b

/-- What the status path leaves latched (R11). -/
theorem statusPath_runningStatus (p : ParserState) {b : Byte} (hb : isStatus b = true) :
    (statusPath p b).runningStatus =
      if recognised b then some b else if unsupported b then none else p.runningStatus := by
  rw [statusPath_eq]
  split
  case isTrue hrt => simp [recognised_eq_false_of_isRealTime hrt, unsupported_eq_false_of_isRealTime hrt]
  case isFalse hrt =>
    split
    case isTrue => rfl
    case isFalse hr => simp [unsupported, hb, hrt, hr]

/-- Settles O34: the status path writes `running_status` as R11 says, and the data path, on a byte of neither class,
keeps it. -/
theorem runningStatusIsWrittenByStatusBytes : Obligations.RunningStatusIsWrittenByStatusBytes := by
  intro p p' b m h
  obtain ⟨hwf, ⟨hb, rfl, _⟩ | ⟨hb, hdata⟩⟩ := feedAsm_cases h
  case inl => exact statusPath_runningStatus p hb
  case inr =>
    have hp : p' = (dataPath p b).1 := congrArg Prod.fst hdata
    have hkeep : p'.runningStatus = p.runningStatus := hp ▸ dataPath_runningStatus hwf b
    simp [recognised_eq_false_of_data hb, unsupported, hb, hkeep]

end Sys2Proof.Machine
end
section
/-! PROOFS. The message format (R18, R54, R100): which lists of bytes `decodeMessage` accepts, O4. -/

namespace Sys2Proof

theorem decodeMessage_two_ok_iff (s d1 : Byte) :
    (∃ i, decodeMessage [s, d1] = .ok i) ↔ isStatus s = true ∧ isStatus d1 = false := by
  cases hs : isStatus s <;> cases h1 : isStatus d1 <;> simp [decodeMessage, hs, h1]

theorem decodeMessage_three_ok_iff (s d1 d2 : Byte) :
    (∃ i, decodeMessage [s, d1, d2] = .ok i) ↔ isStatus s = true ∧ isStatus d1 = false ∧ isStatus d2 = false := by
  cases hs : isStatus s <;> cases h1 : isStatus d1 <;> cases h2 : isStatus d2 <;> simp [decodeMessage, hs, h1, h2]

/-- Settles O4: by the number of bytes, which is 2 or 3 on either side. -/
theorem messagesAreStatusThenData : Obligations.MessagesAreStatusThenData := by
  intro bytes
  match bytes with
  | [s, d1] => simp [decodeMessage_two_ok_iff]
  | [s, d1, d2] => simp [decodeMessage_three_ok_iff]
  | [] => simp [decodeMessage]
  | [_] => simp [decodeMessage]
  | _ :: _ :: _ :: _ :: _ => simp [decodeMessage]

end Sys2Proof
end
section
/-! PROOFS. The Translator's events (R19): O52. -/

namespace Sys2Proof.Machine

/-- The raw pitch-bend value has 14 bits (R96, R102). -/
theorem pitchBendRaw_lt (d1 d2 : Data7) : pitchBendRaw d1 d2 < 2 ^ 14 := by
  have h2 : d2.toNat <<< 7 < 2 ^ 14 := by
    rw [Nat.shiftLeft_eq]; omega
  exact Nat.or_lt_two_pow h2 (by omega)

theorem pitchBendValue_mem_range (d1 d2 : Data7) : -8192 ≤ pitchBendValue d1 d2 ∧ pitchBendValue d1 d2 ≤ 8191 := by
  have h := pitchBendRaw_lt d1 d2
  unfold pitchBendValue
  omega

/-- Everything this hardware's Translator can answer (R92 to R98): the six variants, from the message's fields. -/
theorem translateMsg_cases {m : RawMessage} {e : MidiEvent} (h : translateMsg m = some e) :
    e = .noteOff m.channel m.data1 0#7 ∨
    (∃ d2, d2 ≠ 0#7 ∧ e = .noteOn m.channel m.data1 d2) ∨
    (∃ d2, e = .controlChange m.channel m.data1 d2) ∨
    (∃ d2, e = .pitchBend m.channel (pitchBendValue m.data1 d2)) ∨
    e = .programChange m.channel m.data1 ∨
    e = .channelPressure m.channel m.data1 := by
  unfold translateMsg translateWith at h
  split at h
  case h_1 d2 _ =>
    split at h
    · cases h; exact .inl rfl
    split at h
    · split at h
      · cases h; exact .inl rfl
      · cases h; exact .inr (.inl ⟨d2, ‹_›, rfl⟩)
    split at h
    · cases h; exact .inr (.inr (.inl ⟨d2, rfl⟩))
    split at h
    · cases h; exact .inr (.inr (.inr (.inl ⟨d2, rfl⟩)))
    · cases h
  case h_2 =>
    split at h
    · cases h; exact .inr (.inr (.inr (.inr (.inl rfl))))
    split at h
    · cases h; exact .inr (.inr (.inr (.inr (.inr rfl))))
    · cases h

/-- Settles O52: each variant's fields are those the Translator put there. -/
theorem eventFieldsAreInRange : Obligations.EventFieldsAreInRange := by
  intro m e h
  obtain rfl | ⟨d2, hd2, rfl⟩ | ⟨d2, rfl⟩ | ⟨d2, rfl⟩ | rfl | rfl := translateMsg_cases h
  case inl => exact ⟨rfl, rfl, rfl⟩
  case inr.inl => exact ⟨rfl, rfl, hd2⟩
  case inr.inr.inl => exact ⟨rfl, rfl⟩
  case inr.inr.inr.inl => exact ⟨rfl, pitchBendValue_mem_range m.data1 d2⟩
  all_goals exact ⟨rfl, rfl⟩

end Sys2Proof.Machine
end

section
/-! PROOFS. Reachability (R16): a state is reached from reset by feeding bytes exactly when it is well-formed, O30. -/

namespace Sys2Proof.Machine

/-! ### One byte through the Facade -/

/-- The Facade's `feed` is the Assembler's step with the message translated (R105). -/
theorem feed_of_feedAsm {p p' : ParserState} {b : Byte} {m : Option RawMessage} (h : feedAsm p b = some (p', m)) :
    feed p b = some (p', m.bind translateMsg) := by
  simp only [feed, feedWith, h]; rfl

/-- `WF` is kept by every byte the Facade answers (R17). -/
theorem feed_wf {p p' : ParserState} {b : Byte} {e : Option MidiEvent} (hwf : p.wf = true)
    (h : feed p b = some (p', e)) : p'.wf = true := by
  obtain ⟨q, m, hq, hqwf⟩ := everyByteKeepsWellFormedness p b hwf
  rw [feed_of_feedAsm hq] at h
  cases h
  exact hqwf

/-! ### Streams -/

theorem feedChunk_cons (p : ParserState) (b : Byte) (rest : List Byte) :
    feedChunk p (b :: rest) =
      (feed p b).bind fun r => (feedChunk r.1 rest).map fun r' => (r'.1, r.2.toList ++ r'.2) := by
  rw [feedChunk]
  cases feed p b <;> rfl

/-- Feeding one more byte after a stream (R107). -/
theorem feedChunk_concat {p q p' : ParserState} {bytes : List Byte} {b : Byte} {events : List MidiEvent}
    {e : Option MidiEvent} (h : feedChunk p bytes = some (q, events)) (hb : feed q b = some (p', e)) :
    feedChunk p (bytes ++ [b]) = some (p', events ++ e.toList) := by
  induction bytes generalizing p events with
  | nil =>
    cases h
    simp [feedChunk_cons, hb, feedChunk]
  | cons x xs ih =>
    simp only [feedChunk_cons, Option.bind_eq_some_iff, Option.map_eq_some_iff] at h
    obtain ⟨⟨p₁, e₁⟩, hx, ⟨q', es⟩, hxs, heq⟩ := h
    cases heq
    simp [feedChunk_cons, hx, ih hxs]

/-- `WF` is kept by every stream (R17). -/
theorem feedChunk_wf {p p' : ParserState} {bytes : List Byte} {events : List MidiEvent} (hwf : p.wf = true)
    (h : feedChunk p bytes = some (p', events)) : p'.wf = true := by
  induction bytes generalizing p events with
  | nil => cases h; exact hwf
  | cons b rest ih =>
    simp only [feedChunk_cons, Option.bind_eq_some_iff, Option.map_eq_some_iff] at h
    obtain ⟨⟨q, e⟩, hb, ⟨p'', es⟩, hrest, heq⟩ := h
    cases heq
    exact ih (feed_wf hwf hb) hrest

/-! ### The reachable states -/

/-- Reached from the reset state by feeding some stream of bytes (R16). -/
def ParserState.Reachable (p : ParserState) : Prop :=
  ∃ bytes events, feedChunk ParserState.fresh bytes = some (p, events)

theorem ParserState.reachable_fresh : ParserState.fresh.Reachable := ⟨[], [], rfl⟩

theorem ParserState.Reachable.of_feedAsm {p p' : ParserState} {b : Byte} {m : Option RawMessage} (hp : p.Reachable)
    (h : feedAsm p b = some (p', m)) : p'.Reachable := by
  obtain ⟨bytes, events, hbytes⟩ := hp
  exact ⟨_, _, feedChunk_concat hbytes (feed_of_feedAsm h)⟩

/-- A recognised status opens its message (R72, R73, R75 to R78). -/
theorem ParserState.reachable_latchStatus {r : Byte} (hr : recognised r = true) :
    (latchStatus r (dataBytesOf r)).Reachable :=
  ParserState.reachable_fresh.of_feedAsm <| by
    rw [feedAsm_of_isStatus ParserState.fresh_wf (isStatus_of_recognised r hr), statusPath_of_recognised _ hr]

/-- The number of data bytes, read off the length (R55). -/
theorem dataBytesOf_of_msglen {r : Byte} {n : Fin 3} (h : msglen r = n.val + 1) : dataBytesOf r = n := by
  unfold msglen at h
  split at h <;> omega

/-- In flight, the first of two data bytes (R80). -/
theorem feedAsm_awaiting_two {rs : Option Byte} {pb : List Byte} {d : Byte} (h : (⟨rs, pb, 2⟩ : ParserState).wf = true)
    (hd : isStatus d = false) : feedAsm ⟨rs, pb, 2⟩ d = some (⟨rs, pb ++ [d], 1⟩, none) :=
  feedAsm_of_data h hd

/-- In flight, the last data byte (R80). -/
theorem feedAsm_awaiting_one {rs : Option Byte} {pb : List Byte} {d : Byte} (h : (⟨rs, pb, 1⟩ : ParserState).wf = true)
    (hd : isStatus d = false) : feedAsm ⟨rs, pb, 1⟩ d = some (⟨rs, [], 0⟩, RawMessage.ofBuffer (pb ++ [d])) :=
  feedAsm_of_data h hd

variable {r d : Byte}

theorem ParserState.reachable_awaiting_two (hr : recognised r = true) (hlen : msglen r = 3) :
    (⟨some r, [r], 2⟩ : ParserState).Reachable := by
  have h := reachable_latchStatus hr
  rwa [dataBytesOf_of_msglen (n := 2) hlen] at h

theorem ParserState.reachable_awaiting_only (hr : recognised r = true) (hlen : msglen r = 2) :
    (⟨some r, [r], 1⟩ : ParserState).Reachable := by
  have h := reachable_latchStatus hr
  rwa [dataBytesOf_of_msglen (n := 1) hlen] at h

theorem ParserState.reachable_awaiting_last (hr : recognised r = true) (hlen : msglen r = 3) (hd : isStatus d = false) :
    (⟨some r, [r, d], 1⟩ : ParserState).Reachable :=
  (reachable_awaiting_two hr hlen).of_feedAsm (feedAsm_awaiting_two (by simp [hr, hlen]) hd)

/-- A latched status is what a whole message leaves: two bytes or three, by its length. -/
theorem ParserState.reachable_latched (hr : recognised r = true) : (⟨some r, [], 0⟩ : ParserState).Reachable := by
  obtain hlen | hlen := msglen_of_recognised r hr
  · exact (reachable_awaiting_only hr hlen).of_feedAsm (feedAsm_awaiting_one (d := 0#8) (by simp [hr, hlen]) rfl)
  · have hlast := reachable_awaiting_last hr hlen (d := 0#8) rfl
    exact hlast.of_feedAsm (feedAsm_awaiting_one (d := 0#8) (by simp [hr, hlen]; rfl) rfl)

/-- Settles O30: each case of R16 is reached by the bytes of its message so far, and no stream leaves `WF`. -/
theorem reachableIffWellFormed : Obligations.ReachableIffWellFormed := by
  intro p
  constructor
  case mp =>
    intro h
    obtain rfl | ⟨r, hr, rfl⟩ | ⟨r, hr, hlen, rfl⟩ | ⟨r, d, hr, hlen, hd, rfl⟩ | ⟨r, hr, hlen, rfl⟩ := p.wf_cases h
    case inl => exact ParserState.reachable_fresh
    case inr.inl => exact ParserState.reachable_latched hr
    case inr.inr.inl => exact ParserState.reachable_awaiting_two hr hlen
    case inr.inr.inr.inl => exact ParserState.reachable_awaiting_last hr hlen hd
    case inr.inr.inr.inr => exact ParserState.reachable_awaiting_only hr hlen
  case mpr =>
    rintro ⟨bytes, events, h⟩
    exact feedChunk_wf ParserState.fresh_wf h

end Sys2Proof.Machine
end

section
/-! PROOFS. The number of well-formed states (R16): they are listed case by case, O31. -/

namespace Sys2Proof.Machine

/-- All words of a width, in order. -/
def allWords (w : Nat) : List (BitVec w) :=
  (List.finRange (2 ^ w)).map BitVec.ofFin

@[simp] theorem mem_allWords {w : Nat} (x : BitVec w) : x ∈ allWords w :=
  List.mem_map.mpr ⟨x.toFin, List.mem_finRange _, rfl⟩

theorem nodup_allWords (w : Nat) : (allWords w).Nodup :=
  (List.nodup_finRange _).map fun _ _ h => BitVec.ofFin.inj h

@[simp] theorem length_allWords (w : Nat) : (allWords w).length = 2 ^ w := by
  simp [allWords]

/-- The recognised statuses (R11). -/
def recognisedStatuses : List Byte :=
  (allWords 8).filter recognised

/-- The recognised statuses of a length (R55). -/
def statusesOfLength (n : Nat) : List Byte :=
  recognisedStatuses.filter fun r => msglen r == n

/-- The states of the second case of R16: a latched status. -/
def latchedStates : List ParserState :=
  recognisedStatuses.map fun r => ⟨some r, [], 0⟩

/-- The states of the third case of R16: two data bytes to come. -/
def awaitingTwoStates : List ParserState :=
  (statusesOfLength 3).map fun r => ⟨some r, [r], 2⟩

/-- The states of the fourth case of R16: the second of two data bytes to come. -/
def awaitingLastStates : List ParserState :=
  (statusesOfLength 3 ×ˢ allWords 7).map fun rv => ⟨some rv.1, [rv.1, dataByte rv.2], 1⟩

/-- The states of the fifth case of R16: the one data byte to come. -/
def awaitingOnlyStates : List ParserState :=
  (statusesOfLength 2).map fun r => ⟨some r, [r], 1⟩

/-- Every well-formed state, once (R16). -/
def wellFormedStates : List ParserState :=
  ParserState.fresh :: (latchedStates ++ (awaitingTwoStates ++ (awaitingLastStates ++ awaitingOnlyStates)))

theorem length_recognisedStatuses : recognisedStatuses.length = 96 := by decide
theorem length_statusesOfLength_three : (statusesOfLength 3).length = 64 := by decide
theorem length_statusesOfLength_two : (statusesOfLength 2).length = 32 := by decide

theorem length_wellFormedStates : wellFormedStates.length = 8385 := by
  simp [wellFormedStates, latchedStates, awaitingTwoStates, awaitingLastStates, awaitingOnlyStates,
    List.length_product, length_recognisedStatuses, length_statusesOfLength_three, length_statusesOfLength_two]

theorem nodup_recognisedStatuses : recognisedStatuses.Nodup :=
  (nodup_allWords 8).filter _

theorem nodup_statusesOfLength (n : Nat) : (statusesOfLength n).Nodup :=
  nodup_recognisedStatuses.filter _

theorem nodup_latchedStates : latchedStates.Nodup :=
  nodup_recognisedStatuses.map fun _ _ h => by simpa using h

theorem nodup_awaitingTwoStates : awaitingTwoStates.Nodup :=
  (nodup_statusesOfLength 3).map fun _ _ h => by simpa using h

theorem dataByte_injective : Function.Injective dataByte :=
  Function.LeftInverse.injective dataValue_dataByte

theorem nodup_awaitingLastStates : awaitingLastStates.Nodup := by
  refine ((nodup_statusesOfLength 3).product (nodup_allWords 7)).map ?_
  rintro ⟨r, v⟩ ⟨r', v'⟩ h
  simp only [ParserState.mk.injEq, List.cons.injEq, Option.some.injEq] at h
  obtain ⟨rfl, ⟨_, hd, _⟩, _⟩ := h
  rw [dataByte_injective hd]

theorem nodup_awaitingOnlyStates : awaitingOnlyStates.Nodup :=
  (nodup_statusesOfLength 2).map fun _ _ h => by simpa using h

theorem mem_recognisedStatuses {r : Byte} : r ∈ recognisedStatuses ↔ recognised r = true := by
  simp [recognisedStatuses]

theorem mem_statusesOfLength {n : Nat} {r : Byte} : r ∈ statusesOfLength n ↔ recognised r = true ∧ msglen r = n := by
  simp [statusesOfLength, mem_recognisedStatuses]

theorem mem_latchedStates {p : ParserState} :
    p ∈ latchedStates ↔ ∃ r, recognised r = true ∧ ⟨some r, [], 0⟩ = p := by
  simp [latchedStates, mem_recognisedStatuses]

theorem mem_awaitingTwoStates {p : ParserState} :
    p ∈ awaitingTwoStates ↔ ∃ r, (recognised r = true ∧ msglen r = 3) ∧ ⟨some r, [r], 2⟩ = p := by
  simp [awaitingTwoStates, mem_statusesOfLength]

theorem mem_awaitingLastStates {p : ParserState} :
    p ∈ awaitingLastStates ↔ ∃ r v, (recognised r = true ∧ msglen r = 3) ∧ ⟨some r, [r, dataByte v], 1⟩ = p := by
  simp [awaitingLastStates, List.mem_product, mem_statusesOfLength]

theorem mem_awaitingOnlyStates {p : ParserState} :
    p ∈ awaitingOnlyStates ↔ ∃ r, (recognised r = true ∧ msglen r = 2) ∧ ⟨some r, [r], 1⟩ = p := by
  simp [awaitingOnlyStates, mem_statusesOfLength]

theorem mem_wellFormedStates {p : ParserState} :
    p ∈ wellFormedStates ↔
      p = ParserState.fresh ∨ p ∈ latchedStates ∨ p ∈ awaitingTwoStates ∨ p ∈ awaitingLastStates ∨
        p ∈ awaitingOnlyStates := by
  simp only [wellFormedStates, List.mem_cons, List.mem_append]

theorem awaitingLastStates_disjoint : awaitingLastStates.Disjoint awaitingOnlyStates := by
  intro p hp hq
  obtain ⟨r, v, _, rfl⟩ := mem_awaitingLastStates.mp hp
  simp [mem_awaitingOnlyStates] at hq

theorem awaitingTwoStates_disjoint : awaitingTwoStates.Disjoint (awaitingLastStates ++ awaitingOnlyStates) := by
  intro p hp hq
  obtain ⟨r, _, rfl⟩ := mem_awaitingTwoStates.mp hp
  simp [mem_awaitingLastStates, mem_awaitingOnlyStates] at hq

theorem latchedStates_disjoint :
    latchedStates.Disjoint (awaitingTwoStates ++ (awaitingLastStates ++ awaitingOnlyStates)) := by
  intro p hp hq
  obtain ⟨r, _, rfl⟩ := mem_latchedStates.mp hp
  simp [mem_awaitingTwoStates, mem_awaitingLastStates, mem_awaitingOnlyStates] at hq

/-- No state stands in two cases: the presence bit, the buffer's length and the count tell them apart. -/
theorem nodup_wellFormedStates : wellFormedStates.Nodup := by
  have hawaiting := nodup_awaitingTwoStates.append
    (nodup_awaitingLastStates.append nodup_awaitingOnlyStates awaitingLastStates_disjoint) awaitingTwoStates_disjoint
  refine List.nodup_cons.mpr ⟨?_, nodup_latchedStates.append hawaiting latchedStates_disjoint⟩
  simp [ParserState.fresh, mem_latchedStates, mem_awaitingTwoStates, mem_awaitingLastStates, mem_awaitingOnlyStates]

theorem mem_wellFormedStates_iff_wf (p : ParserState) : p ∈ wellFormedStates ↔ p.wf = true := by
  rw [mem_wellFormedStates, mem_latchedStates, mem_awaitingTwoStates, mem_awaitingLastStates, mem_awaitingOnlyStates]
  constructor
  case mp =>
    rintro (rfl | ⟨r, hr, rfl⟩ | ⟨r, ⟨hr, hlen⟩, rfl⟩ | ⟨r, v, ⟨hr, hlen⟩, rfl⟩ | ⟨r, ⟨hr, hlen⟩, rfl⟩)
    case inl => exact ParserState.fresh_wf
    case inr.inl => simp [hr]
    all_goals simp [hr, hlen]
  case mpr =>
    intro h
    obtain rfl | ⟨r, hr, rfl⟩ | ⟨r, hr, hlen, rfl⟩ | ⟨r, d, hr, hlen, hd, rfl⟩ | ⟨r, hr, hlen, rfl⟩ := p.wf_cases h
    case inl => exact .inl rfl
    case inr.inl => exact .inr (.inl ⟨r, hr, rfl⟩)
    case inr.inr.inl => exact .inr (.inr (.inl ⟨r, ⟨hr, hlen⟩, rfl⟩))
    case inr.inr.inr.inl =>
      exact .inr (.inr (.inr (.inl ⟨r, dataValue d, ⟨hr, hlen⟩, by rw [dataByte_dataValue d hd]⟩)))
    case inr.inr.inr.inr => exact .inr (.inr (.inr (.inr ⟨r, ⟨hr, hlen⟩, rfl⟩)))

/-- Settles O31: the list of the five cases has each well-formed state once, and 1 + 96 + 64 + 64 * 128 + 32 entries. -/
theorem wellFormedStatesAreCounted : Obligations.WellFormedStatesAreCounted :=
  ⟨wellFormedStates, nodup_wellFormedStates, length_wellFormedStates, mem_wellFormedStates_iff_wf⟩

end Sys2Proof.Machine
end

section
/-! PROOFS. The bytes that, fed again right after themselves, leave `ParserState` as it is (R38): O40. -/

namespace Sys2Proof.Machine

/-- `Idle` is one state: all three of its fields are fixed (R14). -/
theorem ParserState.isIdle_iff_eq_fresh {p : ParserState} : p.isIdle = true ↔ p = ParserState.fresh := by
  obtain ⟨rs, pb, n⟩ := p
  simp [ParserState.isIdle, ParserState.fresh, and_assoc, and_comm]

/-- A Real-Time byte writes nothing (R71). -/
theorem statusPath_of_isRealTime (p : ParserState) {b : Byte} (h : isRealTime b = true) : statusPath p b = p := by
  simp [statusPath_eq, h]

/-- Any other status byte does not read the state it writes over (R83). -/
theorem statusPath_eq_of_not_isRealTime (p q : ParserState) {b : Byte} (h : isRealTime b = false) :
    statusPath p b = statusPath q b := by
  simp [statusPath_eq, h]

/-- The status path of one byte is idempotent: it is the identity or a constant. -/
theorem statusPath_statusPath (p : ParserState) (b : Byte) : statusPath (statusPath p b) b = statusPath p b := by
  cases hrt : isRealTime b
  case true => exact statusPath_of_isRealTime _ hrt
  case false => exact statusPath_eq_of_not_isRealTime _ _ hrt

/-- A data byte in `Idle` is discarded (R82). -/
theorem dataPath_fresh (b : Byte) : dataPath ParserState.fresh b = (ParserState.fresh, none) := rfl

/-- Settles O40: a status byte takes the idempotent status path from a state that is well-formed again, and a data byte
in `Idle` leaves `Idle`. -/
theorem idempotentBytes : Obligations.IdempotentBytes := by
  intro p p' b m h hcase
  obtain ⟨hwf, ⟨hb, rfl, _⟩ | ⟨hb, hdata⟩⟩ := feedAsm_cases h
  case inl => rw [feedAsm_of_isStatus (statusPath_wf hwf b) hb, statusPath_statusPath]
  case inr =>
    have hidle : p = ParserState.fresh := ParserState.isIdle_iff_eq_fresh.mp (hcase.resolve_left (by simp [hb]))
    have hkeep : p' = ParserState.fresh := by
      rw [hidle, dataPath_fresh] at hdata
      exact congrArg Prod.fst hdata
    rw [hkeep, feedAsm_of_data ParserState.fresh_wf hb, dataPath_fresh]

end Sys2Proof.Machine
end

section
/-! PROOFS. The encoding (R53, R54, R62): what the decoder answers on an encoded row, what stands behind an answer, and
the byte class map. O1, O2, O3 and O5. -/

namespace Sys2Proof

/-! ### The byte rows -/

/-- The two rows of three free bits, in every data context (R53). -/
theorem decodeByte_code (ctx : DataContext) (c : BitVec 3) :
    decodeByte ctx (0b11111#5 ++ c) = .rt c ∧ decodeByte ctx (0b11110#5 ++ c) = .stUnsupSys c := by
  cases ctx <;> revert c <;> decide

/-- The seven rows of a command nibble and a channel, in every data context (R53). -/
theorem decodeByte_statusByte (ctx : DataContext) (ch : Channel) :
    decodeByte ctx (statusByte 0x8#4 ch) = .stNoteOff ch ∧ decodeByte ctx (statusByte 0x9#4 ch) = .stNoteOn ch ∧
    decodeByte ctx (statusByte 0xA#4 ch) = .stUnsupA ch ∧ decodeByte ctx (statusByte 0xB#4 ch) = .stCtrlChange ch ∧
    decodeByte ctx (statusByte 0xC#4 ch) = .stProgChange ch ∧
    decodeByte ctx (statusByte 0xD#4 ch) = .stChanPressure ch ∧
    decodeByte ctx (statusByte 0xE#4 ch) = .stPitchBend ch := by
  cases ctx <;> revert ch <;> decide

/-- A data byte is the row of its data context (R53, R62). -/
theorem decodeByte_dataByte (ctx : DataContext) (v : Data7) : decodeByte ctx (dataByte v) = decodeData ctx v := by
  cases ctx <;> revert v <;> decide

/-- A byte row decodes from its one byte, in a context that selects it. -/
theorem decode_encode_of_byteRow {ctx : DataContext} {i : Instr} {b : Byte} (hi : encode i = [b])
    (hb : decodeByte ctx b = i) : decode ctx (encode i) = .ok i := by
  rw [hi, decode, hb]

/-- The row of every byte spells that byte, is well-formed and is one its data context selects (R53). -/
theorem decodeByte_spelling (ctx : DataContext) (b : Byte) :
    encode (decodeByte ctx b) = [b] ∧ WellFormed (decodeByte ctx b) = true ∧
      selectedIn ctx (decodeByte ctx b) = true := by
  cases ctx <;> revert b <;> decide

/-! ### The message rows -/

/-- Bit 7, by the mask of R50. -/
theorem isStatus_eq_getLsbD (b : Byte) : isStatus b = b.getLsbD 7 := by
  revert b; decide

/-- Two bytes that are accepted: a status byte and a data byte (R54). -/
theorem decodeMessage_two {s : Byte} (hs : isStatus s = true) (d1 : Data7) :
    decodeMessage [s, dataByte d1] = .ok (decodeM2 s d1) := by
  simp [decodeMessage, hs]

/-- Three bytes that are accepted: a status byte and two data bytes (R54). -/
theorem decodeMessage_three {s : Byte} (hs : isStatus s = true) (d1 d2 : Data7) :
    decodeMessage [s, dataByte d1, dataByte d2] = .ok (decodeM3 s d1 d2) := by
  simp [decodeMessage, hs]

/-- A command that no two-byte row has is MSG_OTHER (R99). -/
theorem decodeM2_of_not_eventRow {s : Byte} (h : eventRow (nibbleOf s) false = false) (d1 : Data7) :
    decodeM2 s d1 = .msgOther s d1 none := by
  simp only [eventRow, Bool.false_eq_true, if_false, Bool.or_eq_false_iff, beq_eq_false_iff_ne] at h
  obtain ⟨hC, hD⟩ := h
  simp only [decodeM2, hC, hD, if_false]

/-- A command that no three-byte row has is MSG_OTHER (R99). -/
theorem decodeM3_of_not_eventRow {s : Byte} (h : eventRow (nibbleOf s) true = false) (d1 d2 : Data7) :
    decodeM3 s d1 d2 = .msgOther s d1 (some d2) := by
  simp only [eventRow, if_true, Bool.or_eq_false_iff, beq_eq_false_iff_ne] at h
  obtain ⟨⟨⟨h8, h9⟩, hB⟩, hE⟩ := h
  simp only [decodeM3, h8, h9, hB, hE, if_false]

/-- What a well-formed MSG_OTHER says of its status byte (R18, R99). -/
theorem wellFormed_msgOther_iff (s : Byte) (d1 : Data7) (d2 : Option Data7) :
    WellFormed (.msgOther s d1 d2) = true ↔ isStatus s = true ∧ eventRow (nibbleOf s) d2.isSome = false := by
  simp [WellFormed, isStatus_eq_getLsbD, nibbleOf]

/-- Settles O1: a byte row by its byte in its context, a message row by its command and its length. -/
theorem decodeOfEncode : Obligations.DecodeOfEncode := by
  intro ctx i hwf hsel
  cases i
  case rt c => exact decode_encode_of_byteRow rfl (decodeByte_code ctx c).1
  case stUnsupSys c => exact decode_encode_of_byteRow rfl (decodeByte_code ctx c).2
  case stNoteOff ch => exact decode_encode_of_byteRow rfl (by simp [decodeByte_statusByte])
  case stNoteOn ch => exact decode_encode_of_byteRow rfl (by simp [decodeByte_statusByte])
  case stUnsupA ch => exact decode_encode_of_byteRow rfl (by simp [decodeByte_statusByte])
  case stCtrlChange ch => exact decode_encode_of_byteRow rfl (by simp [decodeByte_statusByte])
  case stProgChange ch => exact decode_encode_of_byteRow rfl (by simp [decodeByte_statusByte])
  case stChanPressure ch => exact decode_encode_of_byteRow rfl (by simp [decodeByte_statusByte])
  case stPitchBend ch => exact decode_encode_of_byteRow rfl (by simp [decodeByte_statusByte])
  case dataAppend v =>
    obtain rfl : ctx = .inFlight := by simpa [selectedIn] using hsel
    exact decode_encode_of_byteRow rfl (decodeByte_dataByte _ v)
  case dataRunning v =>
    obtain rfl : ctx = .latched := by simpa [selectedIn] using hsel
    exact decode_encode_of_byteRow rfl (decodeByte_dataByte _ v)
  case dataOrphan v =>
    obtain rfl : ctx = .idle := by simpa [selectedIn] using hsel
    exact decode_encode_of_byteRow rfl (decodeByte_dataByte _ v)
  case noteOn ch d1 d2 =>
    have hd2 : d2 ≠ 0#7 := by simpa [WellFormed] using hwf
    simp [decode, encode, decodeMessage_three, decodeM3, hd2]
  case noteOff ch d1 d2 => simp [decode, encode, decodeMessage_three, decodeM3]
  case noteOnV0 ch d1 =>
    have h := decodeMessage_three (s := statusByte 0x9#4 ch) (by simp) d1 0#7
    exact h.trans (by simp [decodeM3])
  case ctrlChange ch d1 d2 => simp [decode, encode, decodeMessage_three, decodeM3]
  case pitchBend ch d1 d2 => simp [decode, encode, decodeMessage_three, decodeM3]
  case progChange ch d1 => simp [decode, encode, decodeMessage_two, decodeM2]
  case chanPressure ch d1 => simp [decode, encode, decodeMessage_two, decodeM2]
  case msgOther s d1 d2 =>
    obtain ⟨hs, hrow⟩ := (wellFormed_msgOther_iff s d1 d2).mp hwf
    cases d2
    case none => exact (decodeMessage_two hs d1).trans (by rw [decodeM2_of_not_eventRow hrow])
    case some d2 => exact (decodeMessage_three hs d1 d2).trans (by rw [decodeM3_of_not_eventRow hrow])

/-! ### What stands behind an answer -/

/-- Everything a message that decodes can be: a status byte and one data byte, or two, and the row they name (R54). -/
theorem decodeMessage_ok_cases {bytes : List Byte} {i : Instr} (h : decodeMessage bytes = .ok i) :
    (∃ s d1, isStatus s = true ∧ bytes = [s, dataByte d1] ∧ i = decodeM2 s d1) ∨
    (∃ s d1 d2, isStatus s = true ∧ bytes = [s, dataByte d1, dataByte d2] ∧ i = decodeM3 s d1 d2) := by
  obtain ⟨s, data, rfl, hs, hlen, hdata⟩ := (messagesAreStatusThenData bytes).mp ⟨i, h⟩
  match data with
  | [d1] =>
    have h1 : dataByte (dataValue d1) = d1 := dataByte_dataValue d1 (hdata d1 (by simp))
    rw [← h1, decodeMessage_two hs] at h
    cases h
    exact .inl ⟨s, dataValue d1, hs, by rw [h1], rfl⟩
  | [d1, d2] =>
    have h1 : dataByte (dataValue d1) = d1 := dataByte_dataValue d1 (hdata d1 (by simp))
    have h2 : dataByte (dataValue d2) = d2 := dataByte_dataValue d2 (hdata d2 (by simp))
    rw [← h1, ← h2, decodeMessage_three hs] at h
    cases h
    exact .inr ⟨s, dataValue d1, dataValue d2, hs, by rw [h1, h2], rfl⟩
  | [] => simp at hlen
  | _ :: _ :: _ :: _ => simp at hlen

/-- A status byte, written from its command nibble (R51). -/
theorem statusByte_channelOf {s : Byte} {n : Nibble} (h : nibbleOf s = n) : statusByte n (channelOf s) = s := by
  rw [← h, statusByte_nibbleOf_channelOf]

/-- The row of a two-byte message spells it, is well-formed, and is selected in every data context (R54, R62). -/
theorem decodeM2_spelling (ctx : DataContext) {s : Byte} (hs : isStatus s = true) (d1 : Data7) :
    encode (decodeM2 s d1) = [s, dataByte d1] ∧ WellFormed (decodeM2 s d1) = true ∧
      selectedIn ctx (decodeM2 s d1) = true := by
  unfold decodeM2
  split
  · exact ⟨by rw [encode, statusByte_channelOf ‹_›], rfl, rfl⟩
  split
  · exact ⟨by rw [encode, statusByte_channelOf ‹_›], rfl, rfl⟩
  · refine ⟨rfl, (wellFormed_msgOther_iff s d1 none).mpr ⟨hs, ?_⟩, rfl⟩
    simp [eventRow, *]

/-- The row of a three-byte message spells it, is well-formed, and is selected in every data context (R54, R62). -/
theorem decodeM3_spelling (ctx : DataContext) {s : Byte} (hs : isStatus s = true) (d1 d2 : Data7) :
    encode (decodeM3 s d1 d2) = [s, dataByte d1, dataByte d2] ∧ WellFormed (decodeM3 s d1 d2) = true ∧
      selectedIn ctx (decodeM3 s d1 d2) = true := by
  unfold decodeM3
  split
  · split
    · subst d2
      exact ⟨by rw [encode, statusByte_channelOf ‹_›]; rfl, rfl, rfl⟩
    · exact ⟨by rw [encode, statusByte_channelOf ‹_›], by simpa [WellFormed] using ‹d2 ≠ 0#7›, rfl⟩
  split
  · exact ⟨by rw [encode, statusByte_channelOf ‹_›], rfl, rfl⟩
  split
  · exact ⟨by rw [encode, statusByte_channelOf ‹_›], rfl, rfl⟩
  split
  · exact ⟨by rw [encode, statusByte_channelOf ‹_›], rfl, rfl⟩
  · refine ⟨rfl, (wellFormed_msgOther_iff s d1 (some d2)).mpr ⟨hs, ?_⟩, rfl⟩
    simp [eventRow, *]

/-- Off the single byte, the decoder is the message decoder, in every data context (R90). -/
theorem decode_of_length_ne_one (ctx : DataContext) {bytes : List Byte} (h : bytes.length ≠ 1) :
    decode ctx bytes = decodeMessage bytes := by
  unfold decode
  split
  · simp at h
  · rfl

/-- Settles O2: one byte is spelled by its row, and a message that decodes by the row of its length. -/
theorem decodedHasOneSpelling : Obligations.DecodedHasOneSpelling := by
  intro ctx bytes i h
  by_cases hlen : bytes.length = 1
  case pos =>
    obtain ⟨b, rfl⟩ := List.length_eq_one_iff.mp hlen
    cases h
    exact decodeByte_spelling ctx b
  case neg =>
    rw [decode_of_length_ne_one ctx hlen] at h
    obtain ⟨s, d1, hs, rfl, rfl⟩ | ⟨s, d1, d2, hs, rfl, rfl⟩ := decodeMessage_ok_cases h
    · exact decodeM2_spelling ctx hs d1
    · exact decodeM3_spelling ctx hs d1 d2

/-! ### The byte class map -/

/-- The rows of one byte in the opcode table, as `match`, `mask` and width (R53); the three data rows have one word. -/
def byteClasses : List (Nat × Nat × Nat) :=
  [(248, 248, 1), (240, 248, 1), (128, 240, 1), (144, 240, 1), (160, 240, 1), (176, 240, 1), (192, 240, 1),
    (208, 240, 1), (224, 240, 1), (0, 128, 1)]

/-- An instruction of one byte is in a row of the byte class map. -/
theorem tableRow_mem_byteClasses {i : Instr} (h : (tableRow i).2.2 = 1) : tableRow i ∈ byteClasses := by
  cases i
  case msgOther s d1 d2 => cases d2 <;> simp [tableRow] at h
  all_goals simp [tableRow, byteClasses] at h ⊢

/-- The decoded row of a byte is the one row of the byte class map that matches it (R53). -/
theorem byteClasses_match_iff (ctx : DataContext) (b : Byte) :
    ∀ row ∈ byteClasses, b.toNat &&& row.2.1 = row.1 ↔ row = tableRow (decodeByte ctx b) := by
  cases ctx <;> revert b <;> decide

/-- The row of a byte is a row of one byte (R53). -/
theorem tableRow_decodeByte_width (ctx : DataContext) (b : Byte) : (tableRow (decodeByte ctx b)).2.2 = 1 := by
  cases ctx <;> revert b <;> decide

/-- Settles O3: among the rows of one byte, exactly the decoded one matches, whatever the context selects. -/
theorem byteClassesPartition : Obligations.ByteClassesPartition := by
  intro ctx b
  have hwidth := tableRow_decodeByte_width ctx b
  refine ⟨hwidth, ?decodedRow, fun j hj _ hmatch => ?onlyRow⟩
  case decodedRow => exact (byteClasses_match_iff ctx b _ (tableRow_mem_byteClasses hwidth)).mpr rfl
  case onlyRow => exact (byteClasses_match_iff ctx b _ (tableRow_mem_byteClasses hj)).mp hmatch

/-- Settles O5: each word is cut into its bytes and decoded. -/
theorem sampleWordsDecode : Obligations.SampleWordsDecode :=
  ⟨rfl, rfl, rfl, rfl, rfl, rfl, rfl, rfl⟩

end Sys2Proof
end

section
/-! PROOFS. How a table word is placed (R31, R62): O10. -/

namespace Sys2Proof.Machine

/-- A table word that decodes is fetched as what it decodes to, in the data context right after reset. -/
theorem fetchInput_wordInput {nbits w : Nat} {i : Instr} (h : decodeTableWord nbits w = some i) :
    fetchInput .idle (wordInput nbits w) = .instr i := by
  have hok : decode .idle (wordBytes (nbits / 8) w) = .ok i := by
    unfold decodeTableWord at h
    cases hd : decode .idle (wordBytes (nbits / 8) w)
    case error => simp [hd, Except.toOption] at h
    case ok j => simpa [hd, Except.toOption] using h
  unfold wordInput
  split
  case h_1 b hb =>
    rw [hb] at hok
    cases hok
    exact fetchInput_ofByte .idle b
  case h_2 hne =>
    have hlen : (wordBytes (nbits / 8) w).length ≠ 1 := fun hl =>
      let ⟨b, hb⟩ := List.length_eq_one_iff.mp hl
      hne b hb
    rw [decode_of_length_ne_one .idle hlen] at hok
    exact fetchInput_message_of_ok .idle hok

/-- Settles O10: the placed word is the first input, and the step leaves what stood behind it. -/
theorem placedWordRunsNext : Obligations.PlacedWordRunsNext := by
  intro s nbits w i hctx hword
  refine step_of_input_cons_instr (s := s.withFetchWord nbits w) (State.withFetchWord_input s nbits w) ?_
  rw [State.withFetchWord_parser, hctx]
  exact fetchInput_wordInput hword

end Sys2Proof.Machine
end

section
/-! PROOFS. Running status (R56, R63, R81): the shorthand is the latched status put in front of the data byte, O35, and so
both spellings of a message are one, O36. -/

namespace Sys2Proof.Machine

/-- Under running status, the data path is the append to a buffer that the latched status has just opened (R81). -/
theorem dataPath_of_running {p : ParserState} {r : Byte} (h0 : p.bytesPending = 0) (hr : p.runningStatus = some r)
    (b : Byte) : dataPath p b = appendData (statusPath p r) b := by
  simp [dataPath, h0, hr]

/-- Behind a recognised status, the data path is the append (R80). -/
theorem dataPath_latchStatus {r : Byte} (hr : recognised r = true) (b : Byte) :
    dataPath (latchStatus r (dataBytesOf r)) b = appendData (latchStatus r (dataBytesOf r)) b := by
  rw [dataPath_eq, latchStatus_bytesPending, if_neg ((recognised_iff_dataBytesOf r).mp hr)]

/-- A recognised status byte opens its message and completes none (R72, R73, R75 to R78). -/
theorem feedAsm_of_recognised {p : ParserState} {r : Byte} (hwf : p.wf = true) (hr : recognised r = true) :
    feedAsm p r = some (latchStatus r (dataBytesOf r), none) := by
  rw [feedAsm_of_isStatus hwf (isStatus_of_recognised r hr), statusPath_of_recognised p hr]

/-- A data byte under running status is processed as behind the status itself (R63). -/
theorem feedAsm_of_running {p : ParserState} {r b : Byte} (hwf : p.wf = true) (h0 : p.bytesPending = 0)
    (hr : p.runningStatus = some r) (hb : isStatus b = false) :
    feedAsm p b = feedAsm (latchStatus r (dataBytesOf r)) b := by
  have hrec : recognised r = true := ParserState.recognised_of_wf hwf hr
  have hq : (latchStatus r (dataBytesOf r)).wf = true := latchStatus_wf rfl ((recognised_iff_dataBytesOf r).mp hrec)
  rw [feedAsm_of_data hwf hb, feedAsm_of_data hq hb, dataPath_of_running h0 hr, dataPath_latchStatus hrec,
    statusPath_of_recognised p hrec]

/-- Settles O35: the status byte fed again opens the message that the re-entry opens. -/
theorem runningStatusIsReinjection : Obligations.RunningStatusIsReinjection := by
  intro p r b hwf h0 hr hb
  exact ⟨_, feedAsm_of_recognised hwf (ParserState.recognised_of_wf hwf hr), feedAsm_of_running hwf h0 hr hb⟩

/-! ### Messages in a stream -/

theorem assembleChunk_cons_of_feedAsm {p q : ParserState} {b : Byte} {m : Option RawMessage}
    (h : feedAsm p b = some (q, m)) (rest : List Byte) :
    assembleChunk p (b :: rest) = (assembleChunk q rest).map fun r => (r.1, m.toList ++ r.2) := by
  rw [assembleChunk, h]

/-- A byte that completes no message leaves the messages to the rest of the stream. -/
theorem assembleChunk_cons_of_feedAsm_none {p q : ParserState} {b : Byte} (h : feedAsm p b = some (q, none))
    (rest : List Byte) : assembleChunk p (b :: rest) = assembleChunk q rest := by
  simp [assembleChunk_cons_of_feedAsm h]

/-- The running-status spelling has the messages of the full one (R56, R63). -/
theorem assembleChunk_of_running {s d : Byte} (hs : recognised s = true) (hd : isStatus d = false)
    (rest : List Byte) :
    assembleChunk ⟨some s, [], 0⟩ (d :: rest) = assembleChunk (latchStatus s (dataBytesOf s)) (d :: rest) := by
  have hlatched : (⟨some s, [], 0⟩ : ParserState).wf = true := hs
  rw [assembleChunk, assembleChunk, feedAsm_of_running hlatched rfl rfl hd]

/-- The last data byte of a message, at the end of the stream (R80). -/
theorem assembleChunk_awaiting_one {rs : Option Byte} {pb : List Byte} {d : Byte}
    (h : (⟨rs, pb, 1⟩ : ParserState).wf = true) (hd : isStatus d = false) :
    assembleChunk ⟨rs, pb, 1⟩ [d] = some (⟨rs, [], 0⟩, (RawMessage.ofBuffer (pb ++ [d])).toList) := by
  rw [assembleChunk_cons_of_feedAsm (feedAsm_awaiting_one h hd)]
  simp [assembleChunk]

/-- The two data bytes of a three-byte message (R55, R80). -/
theorem assembleChunk_latchStatus_two {s d1 d2 : Byte} (hs : recognised s = true) (hlen : msglen s = 3)
    (hd1 : isStatus d1 = false) (hd2 : isStatus d2 = false) :
    assembleChunk (latchStatus s (dataBytesOf s)) [d1, d2] =
      some (⟨some s, [], 0⟩, [⟨s, dataValue d1, some (dataValue d2)⟩]) := by
  rw [dataBytesOf_of_msglen (n := 2) hlen, latchStatus,
    assembleChunk_cons_of_feedAsm_none (feedAsm_awaiting_two (by simp [hs, hlen]) hd1)]
  exact assembleChunk_awaiting_one (by simp [hs, hlen, hd1]) hd2

/-- The one data byte of a two-byte message (R55, R80). -/
theorem assembleChunk_latchStatus_one {s d1 : Byte} (hs : recognised s = true) (hlen : msglen s = 2)
    (hd1 : isStatus d1 = false) :
    assembleChunk (latchStatus s (dataBytesOf s)) [d1] = some (⟨some s, [], 0⟩, [⟨s, dataValue d1, none⟩]) := by
  rw [dataBytesOf_of_msglen (n := 1) hlen]
  exact assembleChunk_awaiting_one (by simp [hs, hlen]) hd1

/-- Settles O36: either spelling has its data bytes read behind the opened message. -/
theorem bothSpellingsAgree : Obligations.BothSpellingsAgree := by
  intro p s d1 d2 hwf hs hd1 hd2
  have hfull := assembleChunk_cons_of_feedAsm_none (feedAsm_of_recognised hwf hs)
  have hrunning := assembleChunk_of_running hs hd1
  refine ⟨fun hlen => ?threeBytes, fun hlen => ?twoBytes⟩
  case threeBytes =>
    rw [hfull, hrunning]
    exact ⟨assembleChunk_latchStatus_two hs hlen hd1 hd2, assembleChunk_latchStatus_two hs hlen hd1 hd2⟩
  case twoBytes =>
    rw [hfull, hrunning]
    exact ⟨assembleChunk_latchStatus_one hs hlen hd1, assembleChunk_latchStatus_one hs hlen hd1⟩

end Sys2Proof.Machine
end

section
/-! PROOFS. Real-Time bytes in a stream (R58, R71): O45. -/

namespace Sys2Proof.Machine

/-- A Real-Time byte writes nothing and dispatches nothing (R71). -/
theorem feed_of_isRealTime {p : ParserState} {b : Byte} (hwf : p.wf = true) (hb : isRealTime b = true) :
    feed p b = some (p, none) := by
  have h : feedAsm p b = some (p, none) := by
    rw [feedAsm_of_isStatus hwf (isStatus_of_isRealTime b hb), statusPath_of_isRealTime p hb]
  exact feed_of_feedAsm h

/-- In front of a stream, a Real-Time byte changes neither its events nor the state it leaves (R58). -/
theorem feedChunk_cons_of_isRealTime {p : ParserState} {b : Byte} (hwf : p.wf = true) (hb : isRealTime b = true)
    (rest : List Byte) : feedChunk p (b :: rest) = feedChunk p rest := by
  simp [feedChunk_cons, feed_of_isRealTime hwf hb]

/-- Settles O45, by induction on the stream: a Real-Time byte is dropped on either side, any other byte leads to a
well-formed state. -/
theorem realTimeBytesActAsAbsent : Obligations.RealTimeBytesActAsAbsent := by
  intro p bytes
  induction bytes generalizing p with
  | nil => exact fun _ => rfl
  | cons b rest ih =>
    intro hwf
    cases hb : isRealTime b
    case true => rw [List.filter_cons_of_neg (by simp [hb]), feedChunk_cons_of_isRealTime hwf hb, ih p hwf]
    case false =>
      obtain ⟨q, m, hfeed, hq⟩ := everyByteKeepsWellFormedness p b hwf
      rw [List.filter_cons_of_pos (by simp [hb])]
      simp only [feedChunk_cons, feed_of_feedAsm hfeed, Option.bind_some, ih q hq]

end Sys2Proof.Machine
end

section
/-! PROOFS. The wires (R59, R60): what is read back from them, O56. -/

namespace Sys2Proof.Machine

/-- A message, or none, is read back from its wires (R59). -/
theorem msgWiresOf_read (junk : MsgWires) (m : Option RawMessage) : (msgWiresOf junk m).read = m := by
  match m with
  | none => rfl
  | some ⟨_, _, none⟩ => rfl
  | some ⟨_, _, some _⟩ => rfl

/-- The values `ev_bend` can hold: a pitch bend's value has 14 bits in two's complement (D6); other variants have none. -/
def MidiEvent.bendFits (e : MidiEvent) : Prop :=
  ∀ c v, e = .pitchBend c v → -8192 ≤ v ∧ v ≤ 8191

/-- An event whose bend fits is read back from its wires, and its kind is on `ev_kind` (R60). -/
theorem eventWiresOf_read {e : MidiEvent} (h : e.bendFits) (junk : EventWires) :
    (eventWiresOf junk (some e)).read = some e ∧ (eventWiresOf junk (some e)).evKind = e.kind := by
  cases e
  case pitchBend c v =>
    obtain ⟨hlow, hhigh⟩ := h c v rfl
    have hv : (BitVec.ofInt 14 v).toInt = v := BitVec.toInt_ofInt_eq_self (by decide) (by omega) (by omega)
    exact ⟨congrArg (fun x => some (MidiEvent.pitchBend c x)) hv, rfl⟩
  all_goals exact ⟨rfl, rfl⟩

/-- The Translator, for either value of its parameter, gives only bends that fit (R96, R102). -/
theorem translateWith_bendFits {cfg : Config} {m : RawMessage} {e : MidiEvent} (h : translateWith cfg m = some e) :
    e.bendFits := by
  rintro c v rfl
  obtain ⟨s, d1, d2⟩ := m
  cases d2 with
  | none =>
    simp only [translateWith] at h
    split_ifs at h <;> cases h
  | some d2 =>
    simp only [translateWith] at h
    split_ifs at h <;> cases h
    exact pitchBendValue_mem_range d1 d2

/-- Settles O56: each variant is read from the wires it drives. -/
theorem wiresCarryTheValue : Obligations.WiresCarryTheValue :=
  ⟨msgWiresOf_read, fun _ junk _ _ h => eventWiresOf_read (translateWith_bendFits h) junk, fun _ => rfl⟩

end Sys2Proof.Machine
end

section
/-! PROOFS. What each byte row does to the machine (R71 to R82): the row of the byte, and the whole next state. O11 to
O17; and that it does nothing in a state that is not well-formed (R89): O26. -/

namespace Sys2Proof.Machine

/-! ### The meaning of each byte row, as a step (R71 to R82) -/

section Rows

variable (code : BitVec 3) (ch : Channel) (v : Data7) (s : State)

theorem exec_rt : exec (.rt code) s = byteStep s fun p => (p, none) := rfl

theorem exec_stNoteOff : exec (.stNoteOff ch) s = byteStep s fun _ => (latchStatus (statusByte 0x8#4 ch) 2, none) := rfl

theorem exec_stNoteOn : exec (.stNoteOn ch) s = byteStep s fun _ => (latchStatus (statusByte 0x9#4 ch) 2, none) := rfl

theorem exec_stUnsupA : exec (.stUnsupA ch) s = byteStep s fun _ => (ParserState.fresh, none) := rfl

theorem exec_stCtrlChange :
    exec (.stCtrlChange ch) s = byteStep s fun _ => (latchStatus (statusByte 0xB#4 ch) 2, none) := rfl

theorem exec_stProgChange :
    exec (.stProgChange ch) s = byteStep s fun _ => (latchStatus (statusByte 0xC#4 ch) 1, none) := rfl

theorem exec_stChanPressure :
    exec (.stChanPressure ch) s = byteStep s fun _ => (latchStatus (statusByte 0xD#4 ch) 1, none) := rfl

theorem exec_stPitchBend :
    exec (.stPitchBend ch) s = byteStep s fun _ => (latchStatus (statusByte 0xE#4 ch) 2, none) := rfl

theorem exec_stUnsupSys : exec (.stUnsupSys code) s = byteStep s fun _ => (ParserState.fresh, none) := rfl

theorem exec_dataAppend : exec (.dataAppend v) s = dataStep s .inFlight fun p => appendData p (dataByte v) := rfl

theorem exec_dataRunning : exec (.dataRunning v) s = dataStep s .latched fun p => reinject p (dataByte v) := rfl

theorem exec_dataOrphan : exec (.dataOrphan v) s = dataStep s .idle fun p => (p, none) := rfl

end Rows

/-! ### A byte step, with or without a message -/

section Steps

variable {s : State} {f : ParserState → ParserState × Option RawMessage} {q : ParserState}

/-- A transition that completes no message: both strobes 0, nothing handed to the Sink (R105). -/
theorem byteStep_of_no_message (hwf : s.parser.wf = true) (hf : f s.parser = (q, none)) :
    byteStep s f = .next { s with parser := q, message := none, event := none } := by
  rw [byteStep_of_wf hwf, hf, State.present_none]

/-- A transition that completes a message: the event it translates to is dispatched in this step (R105). -/
theorem byteStep_of_message {m : RawMessage} (hwf : s.parser.wf = true) (hf : f s.parser = (q, some m)) :
    byteStep s f = .next { s with
      parser := q, message := some m, event := translateMsg m, sink := s.sink ++ (translateMsg m).toList } := by
  rw [byteStep_of_wf hwf, hf]
  rfl

/-- A data row that the state selects is a byte step (R62). -/
theorem dataStep_of_dataContext {ctx : DataContext} (h : s.parser.dataContext = ctx)
    (f : ParserState → ParserState × Option RawMessage) : dataStep s ctx f = byteStep s f :=
  if_pos h

end Steps

/-! ### The status rows -/

/-- Settles O11: the RT row's transition is the identity. -/
theorem realTimeByteIsIgnored : Obligations.RealTimeByteIsIgnored := fun s code hwf =>
  ⟨(decodeByte_code _ code).1, (exec_rt code s).trans (byteStep_of_no_message hwf rfl)⟩

/-- Settles O12: each row's transition is the constant latch of its status. -/
theorem twoDataStatusLatches : Obligations.TwoDataStatusLatches := by
  intro s ch hwf
  obtain ⟨hNoteOff, hNoteOn, _, hCtrlChange, _, _, hPitchBend⟩ := decodeByte_statusByte s.parser.dataContext ch
  exact ⟨⟨hNoteOff, (exec_stNoteOff ch s).trans (byteStep_of_no_message hwf rfl)⟩,
    ⟨hNoteOn, (exec_stNoteOn ch s).trans (byteStep_of_no_message hwf rfl)⟩,
    ⟨hCtrlChange, (exec_stCtrlChange ch s).trans (byteStep_of_no_message hwf rfl)⟩,
    ⟨hPitchBend, (exec_stPitchBend ch s).trans (byteStep_of_no_message hwf rfl)⟩⟩

/-- Settles O13: as O12, with one data byte to come. -/
theorem oneDataStatusLatches : Obligations.OneDataStatusLatches := by
  intro s ch hwf
  obtain ⟨_, _, _, _, hProgChange, hChanPressure, _⟩ := decodeByte_statusByte s.parser.dataContext ch
  exact ⟨⟨hProgChange, (exec_stProgChange ch s).trans (byteStep_of_no_message hwf rfl)⟩,
    ⟨hChanPressure, (exec_stChanPressure ch s).trans (byteStep_of_no_message hwf rfl)⟩⟩

/-- Settles O14: either row's transition is the constant `Idle`. -/
theorem unsupportedStatusGoesIdle : Obligations.UnsupportedStatusGoesIdle := by
  intro s ch code hwf
  obtain ⟨_, _, hUnsupA, _⟩ := decodeByte_statusByte s.parser.dataContext ch
  exact ⟨⟨hUnsupA, (exec_stUnsupA ch s).trans (byteStep_of_no_message hwf rfl)⟩,
    ⟨(decodeByte_code _ code).2, (exec_stUnsupSys code s).trans (byteStep_of_no_message hwf rfl)⟩⟩

/-! ### Which data row a state selects (R62) -/

theorem ParserState.dataContext_inFlight {p : ParserState} (h : p.bytesPending ≠ 0) : p.dataContext = .inFlight := by
  simp [ParserState.dataContext, ParserState.inFlight, h]

theorem ParserState.dataContext_latched {p : ParserState} {r : Byte} (h0 : p.bytesPending = 0)
    (hr : p.runningStatus = some r) : p.dataContext = .latched := by
  simp [ParserState.dataContext, ParserState.inFlight, ParserState.hasStatus, h0, hr]

theorem ParserState.dataContext_idle {p : ParserState} (h0 : p.bytesPending = 0) (hr : p.runningStatus = none) :
    p.dataContext = .idle := by
  simp [ParserState.dataContext, ParserState.inFlight, ParserState.hasStatus, h0, hr]

/-- A data byte is the row of the context that the state is in (R53, R62). -/
theorem decodeByte_dataByte_of_dataContext {p : ParserState} {ctx : DataContext} (h : p.dataContext = ctx) (v : Data7) :
    decodeByte p.dataContext (dataByte v) = decodeData ctx v := by
  rw [decodeByte_dataByte, h]

/-! ### The data rows -/

/-- The first of two data bytes is appended (R80). -/
theorem appendData_of_pending_two {p : ParserState} (h2 : p.bytesPending = 2) (b : Byte) :
    appendData p b = (⟨p.runningStatus, p.partialBuffer ++ [b], 1⟩, none) := by
  obtain ⟨rs, pb, _⟩ := p
  cases h2
  exact appendData_two rs pb b

/-- The last data byte completes the message whose bytes are the buffer and it (R80). -/
theorem appendData_of_pending_one {p : ParserState} {b : Byte} (hwf : p.wf = true) (h1 : p.bytesPending = 1)
    (hb : isStatus b = false) :
    ∃ m : RawMessage, m.bytes = p.partialBuffer ++ [b] ∧ appendData p b = (⟨p.runningStatus, [], 0⟩, some m) := by
  obtain rfl | ⟨r, _, rfl⟩ | ⟨r, _, _, rfl⟩ | ⟨r, d, _, _, hd, rfl⟩ | ⟨r, _, _, rfl⟩ := p.wf_cases hwf
  case inr.inr.inr.inl =>
    exact ⟨⟨r, dataValue d, some (dataValue b)⟩, by simp [RawMessage.bytes, dataByte_dataValue, hd, hb], rfl⟩
  case inr.inr.inr.inr => exact ⟨⟨r, dataValue b, none⟩, by simp [RawMessage.bytes, dataByte_dataValue, hb], rfl⟩
  all_goals simp at h1

/-- Settles O15: in flight the row is the append, whose two cases are the two numbers of bytes to come. -/
theorem dataByteAppends : Obligations.DataByteAppends := by
  intro s v hwf hpending
  have hctx : s.parser.dataContext = .inFlight := ParserState.dataContext_inFlight hpending
  have hexec : exec (.dataAppend v) s = byteStep s fun p => appendData p (dataByte v) := by
    rw [exec_dataAppend, dataStep_of_dataContext hctx]
  refine ⟨decodeByte_dataByte_of_dataContext hctx v, fun h2 => ?twoToCome, fun h1 => ?oneToCome⟩
  case twoToCome =>
    rw [hexec]
    exact byteStep_of_no_message hwf (appendData_of_pending_two h2 _)
  case oneToCome =>
    obtain ⟨m, hbytes, happend⟩ := appendData_of_pending_one hwf h1 (isStatus_dataByte v)
    rw [hexec]
    exact ⟨m, hbytes, byteStep_of_message hwf happend⟩

/-- The re-entry is the append to a buffer that the latched status has just opened (R81). -/
theorem reinject_of_running {p : ParserState} {r : Byte} (hwf : p.wf = true) (hr : p.runningStatus = some r)
    (b : Byte) : reinject p b = appendData (latchStatus r (dataBytesOf r)) b := by
  rw [← statusPath_of_recognised p (ParserState.recognised_of_wf hwf hr)]
  simp only [reinject, hr]

/-- Settles O16: the re-entry opens the message of the latched status, whose length decides whether the byte ends it. -/
theorem dataByteUnderRunningStatus : Obligations.DataByteUnderRunningStatus := by
  intro s v r hwf h0 hr
  have hctx : s.parser.dataContext = .latched := ParserState.dataContext_latched h0 hr
  have hexec : exec (.dataRunning v) s = byteStep s fun p => reinject p (dataByte v) := by
    rw [exec_dataRunning, dataStep_of_dataContext hctx]
  have hreinject := reinject_of_running hwf hr (dataByte v)
  refine ⟨decodeByte_dataByte_of_dataContext hctx v,
    (msglen_of_recognised r (ParserState.recognised_of_wf hwf hr)).symm, fun hlen => ?threeBytes, fun hlen => ?twoBytes⟩
  case threeBytes =>
    rw [dataBytesOf_of_msglen (n := 2) hlen] at hreinject
    rw [hexec]
    exact byteStep_of_no_message hwf hreinject
  case twoBytes =>
    rw [dataBytesOf_of_msglen (n := 1) hlen, latchStatus, appendData_one] at hreinject
    rw [hexec]
    refine byteStep_of_message hwf (hreinject.trans ?_)
    simp [RawMessage.ofBuffer]

/-- Settles O17: the orphan row's transition is the identity. -/
theorem orphanDataIsDiscarded : Obligations.OrphanDataIsDiscarded := by
  intro s v hwf h0 hr
  have hctx : s.parser.dataContext = .idle := ParserState.dataContext_idle h0 hr
  have hexec : exec (.dataOrphan v) s = byteStep s fun p => (p, none) := by
    rw [exec_dataOrphan, dataStep_of_dataContext hctx]
  rw [hexec]
  exact ⟨decodeByte_dataByte_of_dataContext hctx v, byteStep_of_no_message hwf rfl⟩

/-! ### A state that is not well-formed -/

/-- A data row that the state selects is refused where the state is not well-formed (R89). -/
theorem dataStep_of_not_wf {s : State} {ctx : DataContext} (hwf : s.parser.wf = false)
    (h : s.parser.dataContext = ctx) (f : ParserState → ParserState × Option RawMessage) :
    dataStep s ctx f = .refused .illFormedState := by
  rw [dataStep_of_dataContext h, byteStep_of_not_wf hwf]

/-- Every row of one byte that the state selects is refused where the state is not well-formed (R89). -/
theorem exec_of_not_wf {i : Instr} {s : State} (hwf : s.parser.wf = false) (hbyte : (encode i).length = 1)
    (hsel : selectedIn s.parser.dataContext i = true) : exec i s = .refused .illFormedState := by
  cases i
  case rt => rw [exec_rt, byteStep_of_not_wf hwf]
  case stNoteOff => rw [exec_stNoteOff, byteStep_of_not_wf hwf]
  case stNoteOn => rw [exec_stNoteOn, byteStep_of_not_wf hwf]
  case stUnsupA => rw [exec_stUnsupA, byteStep_of_not_wf hwf]
  case stCtrlChange => rw [exec_stCtrlChange, byteStep_of_not_wf hwf]
  case stProgChange => rw [exec_stProgChange, byteStep_of_not_wf hwf]
  case stChanPressure => rw [exec_stChanPressure, byteStep_of_not_wf hwf]
  case stPitchBend => rw [exec_stPitchBend, byteStep_of_not_wf hwf]
  case stUnsupSys => rw [exec_stUnsupSys, byteStep_of_not_wf hwf]
  case dataAppend => rw [exec_dataAppend, dataStep_of_not_wf hwf (eq_of_beq hsel)]
  case dataRunning => rw [exec_dataRunning, dataStep_of_not_wf hwf (eq_of_beq hsel)]
  case dataOrphan => rw [exec_dataOrphan, dataStep_of_not_wf hwf (eq_of_beq hsel)]
  case msgOther _ _ d2 => cases d2 <;> simp [encode] at hbyte
  all_goals simp [encode] at hbyte

/-- Settles O26: the row of a byte is one byte long and selected by the state, on whatever input is left. -/
theorem illFormedStateRefuses : Obligations.IllFormedStateRefuses := by
  intro s b rest hwf hin
  obtain ⟨hspell, _, hsel⟩ := decodeByte_spelling s.parser.dataContext b
  have hbyte : (encode (decodeByte s.parser.dataContext b)).length = 1 := congrArg List.length hspell
  refine ⟨exec_of_not_wf hwf hbyte hsel, ?_⟩
  rw [step_of_input_cons_instr hin (fetchInput_ofByte _ b)]
  exact exec_of_not_wf hwf hbyte hsel

end Sys2Proof.Machine
end

section
/-! PROOFS. The Assembler's outputs: the shape of an emitted message (R85), O37, and that a status byte below `0xF8`
resynchronises (R83), O39. -/

namespace Sys2Proof.Machine

/-- A message that the append emits has the latched status and the length that status implies, and nothing of it stays
in the buffer (R80). -/
theorem appendData_message_shape {p q : ParserState} {b : Byte} {m : RawMessage} (hwf : p.wf = true)
    (h : appendData p b = (q, some m)) : m.len = msglen m.statusByte ∧ q = ⟨some m.statusByte, [], 0⟩ := by
  obtain rfl | ⟨r, _, rfl⟩ | ⟨r, _, _, rfl⟩ | ⟨r, d, _, hlen, _, rfl⟩ | ⟨r, _, hlen, rfl⟩ := p.wf_cases hwf
  case inr.inr.inr.inl => cases h; exact ⟨hlen.symm, rfl⟩
  case inr.inr.inr.inr => cases h; exact ⟨hlen.symm, rfl⟩
  all_goals cases h

/-- The same of the data path: a message comes from the append, to the state itself or to the re-opened one (R81). -/
theorem dataPath_message_shape {p q : ParserState} {b : Byte} {m : RawMessage} (hwf : p.wf = true)
    (h : dataPath p b = (q, some m)) : m.len = msglen m.statusByte ∧ q = ⟨some m.statusByte, [], 0⟩ := by
  rw [dataPath_eq, reinject] at h
  split at h
  · split at h
    · exact appendData_message_shape (statusPath_wf hwf _) h
    · cases h
  · exact appendData_message_shape hwf h

/-- Settles O37: a message comes from the data path, and its status is recognised because the state after is
well-formed. -/
theorem emittedMessageShape : Obligations.EmittedMessageShape := by
  intro p p' b m h
  obtain ⟨hwf, ⟨_, _, hm⟩ | ⟨hb, hdata⟩⟩ := feedAsm_cases h
  case inl => cases hm
  case inr =>
    obtain ⟨hlen, rfl⟩ := dataPath_message_shape hwf hdata.symm
    have hwf' : (dataPath p b).1.wf = true := dataPath_wf hwf hb
    rw [← hdata] at hwf'
    exact ⟨ParserState.recognised_of_wf hwf' rfl, hlen, rfl, rfl, rfl⟩

/-- Settles O39: the status path of such a byte reads nothing of the state. -/
theorem statusByteResynchronises : Obligations.StatusByteResynchronises := by
  intro p q b hp hq hb hrt
  refine ⟨statusPath p b, feedAsm_of_isStatus hp hb, ?_⟩
  rw [feedAsm_of_isStatus hq hb, statusPath_eq_of_not_isRealTime q p hrt]

end Sys2Proof.Machine
end

section
/-! PROOFS. Streams cut into chunks (R86, R107): O44. -/

namespace Sys2Proof.Machine

theorem assembleChunk_cons (p : ParserState) (b : Byte) (rest : List Byte) :
    assembleChunk p (b :: rest) =
      (feedAsm p b).bind fun r => (assembleChunk r.1 rest).map fun r' => (r'.1, r.2.toList ++ r'.2) := by
  rw [assembleChunk]
  cases feedAsm p b <;> rfl

theorem assembleChunks_cons (p : ParserState) (chunk : List Byte) (rest : List (List Byte)) :
    assembleChunks p (chunk :: rest) =
      (assembleChunk p chunk).bind fun r => (assembleChunks r.1 rest).map fun r' => (r'.1, r.2 ++ r'.2) := by
  rw [assembleChunks]
  cases assembleChunk p chunk <;> rfl

theorem feedChunks_cons (p : ParserState) (chunk : List Byte) (rest : List (List Byte)) :
    feedChunks p (chunk :: rest) =
      (feedChunk p chunk).bind fun r => (feedChunks r.1 rest).map fun r' => (r'.1, r.2 ++ r'.2) := by
  rw [feedChunks]
  cases feedChunk p chunk <;> rfl

/-- The second part of a stream is assembled from the state that the first part leaves (R86). -/
theorem assembleChunk_append (p : ParserState) (xs ys : List Byte) :
    assembleChunk p (xs ++ ys) =
      (assembleChunk p xs).bind fun r => (assembleChunk r.1 ys).map fun r' => (r'.1, r.2 ++ r'.2) := by
  induction xs generalizing p with
  | nil => simp [assembleChunk]
  | cons b rest ih =>
    simp only [List.cons_append, assembleChunk_cons, ih]
    simp [Option.bind_assoc, Option.bind_map, Option.map_bind, Function.comp_def]

/-- The second part of a stream is fed to the state that the first part leaves (R107). -/
theorem feedChunk_append (p : ParserState) (xs ys : List Byte) :
    feedChunk p (xs ++ ys) =
      (feedChunk p xs).bind fun r => (feedChunk r.1 ys).map fun r' => (r'.1, r.2 ++ r'.2) := by
  induction xs generalizing p with
  | nil => simp [feedChunk]
  | cons b rest ih =>
    simp only [List.cons_append, feedChunk_cons, ih]
    simp [Option.bind_assoc, Option.bind_map, Option.map_bind, Function.comp_def]

theorem assembleChunks_eq_flatten (p : ParserState) (chunks : List (List Byte)) :
    assembleChunks p chunks = assembleChunk p chunks.flatten := by
  induction chunks generalizing p with
  | nil => rfl
  | cons chunk rest ih => simp only [assembleChunks_cons, List.flatten_cons, assembleChunk_append, ih]

theorem feedChunks_eq_flatten (p : ParserState) (chunks : List (List Byte)) :
    feedChunks p chunks = feedChunk p chunks.flatten := by
  induction chunks generalizing p with
  | nil => rfl
  | cons chunk rest ih => simp only [feedChunks_cons, List.flatten_cons, feedChunk_append, ih]

/-- Settles O44, by induction on the chunks: a chunk boundary is a cut of the stream. -/
theorem chunkBoundariesAreInvisible : Obligations.ChunkBoundariesAreInvisible :=
  fun p chunks => ⟨assembleChunks_eq_flatten p chunks, feedChunks_eq_flatten p chunks⟩

end Sys2Proof.Machine
end

section
/-! PROOFS. System Exclusive blocks (R79, R126): O46. -/

namespace Sys2Proof.Machine

/-- An unsupported status gives `Idle`, whatever was there (R74, R79). -/
theorem statusPath_of_unsupported (p : ParserState) {b : Byte} (h : unsupported b = true) :
    statusPath p b = ParserState.fresh := by
  simp only [unsupported, Bool.and_eq_true, Bool.not_eq_true'] at h
  obtain ⟨⟨_, hrt⟩, hrec⟩ := h
  simp [statusPath_eq, hrt, hrec]

theorem isStatus_of_unsupported {b : Byte} (h : unsupported b = true) : isStatus b = true := by
  simp only [unsupported, Bool.and_eq_true] at h
  exact h.1.1

theorem feed_of_unsupported {p : ParserState} {b : Byte} (hwf : p.wf = true) (h : unsupported b = true) :
    feed p b = some (ParserState.fresh, none) := by
  have hasm : feedAsm p b = some (ParserState.fresh, none) := by
    rw [feedAsm_of_isStatus hwf (isStatus_of_unsupported h), statusPath_of_unsupported p h]
  exact feed_of_feedAsm hasm

/-- A data byte in `Idle` is discarded (R82). -/
theorem feed_fresh_of_data {b : Byte} (hb : isStatus b = false) :
    feed ParserState.fresh b = some (ParserState.fresh, none) :=
  feed_of_feedAsm (feedAsm_of_data ParserState.fresh_wf hb)

/-- A byte that dispatches nothing leaves the events to the rest of the stream. -/
theorem feedChunk_cons_of_feed_none {p q : ParserState} {b : Byte} (h : feed p b = some (q, none)) (rest : List Byte) :
    feedChunk p (b :: rest) = feedChunk q rest := by
  simp [feedChunk_cons, h]

/-- In `Idle`, data bytes and Real-Time bytes are dropped one by one (R71, R82). -/
theorem feedChunk_fresh_of_discarded {payload : List Byte}
    (h : ∀ b ∈ payload, isStatus b = false ∨ isRealTime b = true) :
    feedChunk ParserState.fresh payload = some (ParserState.fresh, []) := by
  induction payload with
  | nil => rfl
  | cons b rest ih =>
    have hb : feed ParserState.fresh b = some (ParserState.fresh, none) :=
      (h b List.mem_cons_self).elim feed_fresh_of_data (feed_of_isRealTime ParserState.fresh_wf)
    rw [feedChunk_cons_of_feed_none hb]
    exact ih fun x hx => h x (List.mem_cons_of_mem b hx)

/-- Settles O46: the first status gives `Idle`, the payload is dropped there, and the last status gives `Idle` again. -/
theorem systemExclusiveBlockIsDiscarded : Obligations.SystemExclusiveBlockIsDiscarded := by
  intro p first last payload hwf hfirst hlast hpayload
  have hopen : feedChunk p (first :: payload) = some (ParserState.fresh, []) := by
    rw [feedChunk_cons_of_feed_none (feed_of_unsupported hwf hfirst), feedChunk_fresh_of_discarded hpayload]
  exact feedChunk_concat hopen (feed_of_unsupported ParserState.fresh_wf hlast)

end Sys2Proof.Machine
end

section
/-! PROOFS. The pitch bend's arithmetic (R96, R102, R103): the sum of the two groups, and its pattern in 14-bit two's
complement. O53 and O54. -/

namespace Sys2Proof.Machine

/-- The shifted `data2` and `data1` share no bit, so the disjunction is a sum (R102). -/
theorem pitchBendRaw_eq_add (d1 d2 : Data7) : pitchBendRaw d1 d2 = d2.toNat * 128 + d1.toNat := by
  rw [pitchBendRaw, ← Nat.shiftLeft_add_eq_or_of_lt d1.isLt, Nat.shiftLeft_eq]

/-- The raw value is the two groups side by side (R57, R102). -/
theorem pitchBendRaw_eq_toNat_append (d1 d2 : Data7) : pitchBendRaw d1 d2 = (d2 ++ d1).toNat :=
  (BitVec.toNat_append d2 d1).symm

/-- Settles O53: the product form and the concatenation, and the range of a 14-bit value less its half. -/
theorem pitchBendArithmetic : Obligations.PitchBendArithmetic := fun d1 d2 =>
  ⟨pitchBendRaw_eq_add d1 d2, Nat.le_of_lt_succ (pitchBendRaw_lt d1 d2), pitchBendRaw_eq_toNat_append d1 d2,
    pitchBendValue_mem_range d1 d2⟩

/-- Inverting the top bit of `data2` is adding half its range, modulo 128. -/
theorem toNat_invertTopBit (v : Data7) :
    (~~~(v.extractLsb' 6 1) ++ v.extractLsb' 0 6).toNat = (v.toNat + 64) % 128 := by
  revert v; decide

/-- Inverting bit 13 is adding `8192` to the raw value, modulo 2^14 (R103). -/
theorem toNat_bendPattern (d1 d2 : Data7) :
    (bendPattern d1 d2).toNat = (d2.toNat + 64) % 128 * 128 + d1.toNat := by
  rw [bendPattern, BitVec.toNat_append, toNat_invertTopBit, ← Nat.shiftLeft_add_eq_or_of_lt d1.isLt, Nat.shiftLeft_eq]

/-- Read as two's complement, the pattern is the value (R103). -/
theorem toInt_bendPattern (d1 d2 : Data7) : (bendPattern d1 d2).toInt = pitchBendValue d1 d2 := by
  have h1 := d1.isLt
  have h2 := d2.isLt
  rw [BitVec.toInt_eq_toNat_cond, toNat_bendPattern, pitchBendValue, pitchBendRaw_eq_add]
  split <;> omega

/-- Settles O54: the pattern reads as the value, and so the value's pattern is that one. -/
theorem bendPatternIsTheValue : Obligations.BendPatternIsTheValue := by
  intro d1 d2
  refine ⟨toInt_bendPattern d1 d2, ?_⟩
  rw [← toInt_bendPattern, BitVec.ofInt_toInt]

end Sys2Proof.Machine
end

section
/-! PROOFS. The Translator's table (R91 to R99): what each row gives for either value of the parameter of R93, that every
other command and length gives nothing, and that these are the two cases. O51. -/

namespace Sys2Proof.Machine

/-- A test of the command against a byte whose low nibble is 0 is a test of the command nibble (R51, R91). -/
theorem RawMessage.command_eq_iff {c : Byte} (hc : c.extractLsb' 0 4 = 0#4) (m : RawMessage) :
    m.command = c ↔ nibbleOf m.statusByte = c.extractLsb' 4 4 := by
  have hbyte : Sys2Proof.statusByte (nibbleOf c) 0#4 = c := hc ▸ statusByte_nibbleOf_channelOf c
  have hcmd := Machine.command_eq_iff m.statusByte (nibbleOf c)
  rw [hbyte] at hcmd
  exact hcmd

section Rows

variable (cfg : Config) (ch : Channel) (d1 d2 : Data7)

/-- `NOTE_OFF` (R93). -/
theorem translateWith_noteOff : translateWith cfg ⟨statusByte 0x8#4 ch, d1, some d2⟩ =
    some (.noteOff ch d1 (if cfg.noteOffKeepsReleaseVelocity then d2 else 0#7)) := by
  simp [translateWith, RawMessage.command_eq_iff, RawMessage.channel]

/-- `NOTE_ON` (R92) and `NOTE_ON_V0` (R94). -/
theorem translateWith_noteOn : translateWith cfg ⟨statusByte 0x9#4 ch, d1, some d2⟩ =
    some (if d2 = 0#7 then .noteOff ch d1 0#7 else .noteOn ch d1 d2) := by
  simp [translateWith, RawMessage.command_eq_iff, RawMessage.channel, apply_ite]

/-- `CTRL_CHANGE` (R95). -/
theorem translateWith_ctrlChange : translateWith cfg ⟨statusByte 0xB#4 ch, d1, some d2⟩ =
    some (.controlChange ch d1 d2) := by
  simp [translateWith, RawMessage.command_eq_iff, RawMessage.channel]

/-- `PITCH_BEND` (R96). -/
theorem translateWith_pitchBend : translateWith cfg ⟨statusByte 0xE#4 ch, d1, some d2⟩ =
    some (.pitchBend ch (pitchBendValue d1 d2)) := by
  simp [translateWith, RawMessage.command_eq_iff, RawMessage.channel]

/-- `PROG_CHANGE` (R97). -/
theorem translateWith_progChange : translateWith cfg ⟨statusByte 0xC#4 ch, d1, none⟩ = some (.programChange ch d1) := by
  simp [translateWith, RawMessage.command_eq_iff, RawMessage.channel]

/-- `CHAN_PRESSURE` (R98). -/
theorem translateWith_chanPressure :
    translateWith cfg ⟨statusByte 0xD#4 ch, d1, none⟩ = some (.channelPressure ch d1) := by
  simp [translateWith, RawMessage.command_eq_iff, RawMessage.channel]

end Rows

/-- Off the table's rows there is no event (R99, D8). -/
theorem translateWith_of_not_eventRow {m : RawMessage} (cfg : Config)
    (h : eventRow (nibbleOf m.statusByte) m.data2.isSome = false) : translateWith cfg m = none := by
  obtain ⟨s, d1, d2⟩ := m
  cases d2 with
  | none => simp_all [translateWith, RawMessage.command_eq_iff, eventRow]
  | some d2 => simp_all [translateWith, RawMessage.command_eq_iff, eventRow]

/-- The parameter of R93 is read in the `0x8n` row only. -/
theorem translateWith_eq_translateMsg {m : RawMessage} (cfg : Config) (h : nibbleOf m.statusByte ≠ 0x8#4) :
    translateWith cfg m = translateMsg m := by
  simp [translateMsg, translateWith, RawMessage.command_eq_iff, h]

/-- A status byte is its command nibble and its channel (R51). -/
theorem eq_statusByte_iff (s : Byte) (n : Nibble) : s = statusByte n (channelOf s) ↔ nibbleOf s = n :=
  ⟨fun h => by rw [h, nibbleOf_statusByte], fun h => (statusByte_channelOf h).symm⟩

/-- The messages that match a row of R92 to R98, by the row. -/
theorem eventRow_cases {m : RawMessage} (h : eventRow (nibbleOf m.statusByte) m.data2.isSome = true) :
    ∃ ch d1, (∃ d2, m = ⟨statusByte 0x8#4 ch, d1, some d2⟩) ∨ (∃ d2, m = ⟨statusByte 0x9#4 ch, d1, some d2⟩) ∨
      (∃ d2, m = ⟨statusByte 0xB#4 ch, d1, some d2⟩) ∨ (∃ d2, m = ⟨statusByte 0xE#4 ch, d1, some d2⟩) ∨
      m = ⟨statusByte 0xC#4 ch, d1, none⟩ ∨ m = ⟨statusByte 0xD#4 ch, d1, none⟩ := by
  obtain ⟨s, d1, d2⟩ := m
  refine ⟨channelOf s, d1, ?_⟩
  cases d2 with
  | none => simpa [eventRow, eq_statusByte_iff] using h
  | some d2 => simpa [eventRow, eq_statusByte_iff, or_assoc] using h

/-- Settles O51: each row gives an event, and off the rows there is none. -/
theorem eventIffARowMatches : Obligations.EventIffARowMatches := by
  intro cfg m _
  cases h : eventRow (nibbleOf m.statusByte) m.data2.isSome with
  | false => simp [translateWith_of_not_eventRow cfg h]
  | true =>
    obtain ⟨ch, d1, ⟨d2, rfl⟩ | ⟨d2, rfl⟩ | ⟨d2, rfl⟩ | ⟨d2, rfl⟩ | rfl | rfl⟩ := eventRow_cases h
    · simp [translateWith_noteOff]
    · simp [translateWith_noteOn]
    · simp [translateWith_ctrlChange]
    · simp [translateWith_pitchBend]
    · simp [translateWith_progChange]
    · simp [translateWith_chanPressure]

end Sys2Proof.Machine
end

section
/-! PROOFS. What each message row does to the machine (R90, R92 to R99): the row of the bytes, and the whole next state.
O18 to O25, and O28. -/

namespace Sys2Proof.Machine

/-- A message row decodes from its bytes (R54, R62). -/
theorem decodeMessage_encode {i : Instr} (hwf : WellFormed i = true) (hsel : selectedIn .idle i = true)
    (hlen : (encode i).length ≠ 1) : decodeMessage (encode i) = .ok i := by
  rw [← decode_of_length_ne_one .idle hlen, decodeOfEncode .idle i hwf hsel]

/-- A translated message is presented with its event, which the Sink is handed (R105). -/
theorem translatorStep_of_event {m : RawMessage} {e : MidiEvent} (h : translateMsg m = some e) (s : State) :
    translatorStep m s = .next { s with message := some m, event := some e, sink := s.sink ++ [e] } := by
  simp [translatorStep, State.present, h]

/-- A message that is dropped is presented alone (R99). -/
theorem translatorStep_of_no_event {m : RawMessage} (h : translateMsg m = none) (s : State) :
    translatorStep m s = .next { s with message := some m, event := none } := by
  simp [translatorStep, State.present, h]

/-- A message row is one call of the Translator, on a message that the row alone fixes (R90). -/
theorem exec_eq_translatorStep {i : Instr} (h : (encode i).length ≠ 1) : ∃ m, ∀ s, exec i s = translatorStep m s := by
  cases i
  case noteOn => exact ⟨_, fun _ => rfl⟩
  case noteOff => exact ⟨_, fun _ => rfl⟩
  case noteOnV0 => exact ⟨_, fun _ => rfl⟩
  case ctrlChange => exact ⟨_, fun _ => rfl⟩
  case pitchBend => exact ⟨_, fun _ => rfl⟩
  case progChange => exact ⟨_, fun _ => rfl⟩
  case chanPressure => exact ⟨_, fun _ => rfl⟩
  case msgOther => exact ⟨_, fun _ => rfl⟩
  all_goals exact absurd rfl h

/-- Settles O28: both calls present the one message of the row, whatever the state. -/
theorem translatorIgnoresTheState : Obligations.TranslatorIgnoresTheState := by
  intro i s s' hlen
  obtain ⟨m, hm⟩ := exec_eq_translatorStep hlen
  exact ⟨s.present (some m), s'.present (some m), hm s, hm s', rfl, rfl⟩

/-- Settles O18, by the row of R92. -/
theorem noteOnMessage : Obligations.NoteOnMessage := by
  intro s ch d1 d2 hd2
  have hevent : translateMsg ⟨statusByte 0x9#4 ch, d1, some d2⟩ = some (.noteOn ch d1 d2) :=
    (translateWith_noteOn _ ch d1 d2).trans (by rw [if_neg hd2])
  exact ⟨decodeMessage_encode (i := .noteOn ch d1 d2) (by simpa [WellFormed] using hd2) rfl (by simp [encode]),
    translatorStep_of_event hevent s⟩

/-- Settles O19, by the row of R93; the parameter is read in that row only. -/
theorem noteOffMessage : Obligations.NoteOffMessage := fun s ch d1 d2 =>
  ⟨decodeMessage_encode (i := .noteOff ch d1 d2) rfl rfl (by simp [encode]),
    translatorStep_of_event (translateWith_noteOff Config.hardware ch d1 d2) s,
    fun cfg => translateWith_noteOff cfg ch d1 d2, fun cfg _ h => translateWith_eq_translateMsg cfg h⟩

/-- Settles O20, by the row of R94. -/
theorem noteOnVelocityZeroMessage : Obligations.NoteOnVelocityZeroMessage := fun s ch d1 =>
  ⟨decodeMessage_encode (i := .noteOnV0 ch d1) rfl rfl (by simp [encode]),
    translatorStep_of_event (translateWith_noteOn Config.hardware ch d1 0#7) s⟩

/-- Settles O21, by the row of R95. -/
theorem controlChangeMessage : Obligations.ControlChangeMessage := fun s ch d1 d2 =>
  ⟨decodeMessage_encode (i := .ctrlChange ch d1 d2) rfl rfl (by simp [encode]),
    translatorStep_of_event (translateWith_ctrlChange Config.hardware ch d1 d2) s⟩

/-- Settles O22, by the row of R96. -/
theorem pitchBendMessage : Obligations.PitchBendMessage := fun s ch d1 d2 =>
  ⟨decodeMessage_encode (i := .pitchBend ch d1 d2) rfl rfl (by simp [encode]),
    translatorStep_of_event (translateWith_pitchBend Config.hardware ch d1 d2) s⟩

/-- Settles O23, by the row of R97. -/
theorem programChangeMessage : Obligations.ProgramChangeMessage := fun s ch d1 =>
  ⟨decodeMessage_encode (i := .progChange ch d1) rfl rfl (by simp [encode]),
    translatorStep_of_event (translateWith_progChange Config.hardware ch d1) s⟩

/-- Settles O24, by the row of R98. -/
theorem channelPressureMessage : Obligations.ChannelPressureMessage := fun s ch d1 =>
  ⟨decodeMessage_encode (i := .chanPressure ch d1) rfl rfl (by simp [encode]),
    translatorStep_of_event (translateWith_chanPressure Config.hardware ch d1) s⟩

/-- Settles O25: a well-formed MSG_OTHER matches no row, so its message has no event. -/
theorem otherMessageIsDropped : Obligations.OtherMessageIsDropped := by
  intro s st d1 d2 hwf
  obtain ⟨_, hrow⟩ := (wellFormed_msgOther_iff st d1 d2).mp hwf
  exact translatorStep_of_no_event (translateWith_of_not_eventRow _ hrow) s

end Sys2Proof.Machine
end

section
/-! PROOFS. The look-up table and multiplexer of R101 against the Translator: O55. -/

namespace Sys2Proof.Machine

/-- The index of the look-up table loses nothing of a status byte's command nibble (R101). -/
theorem lutIndex_eq_iff {s : Byte} (hs : isStatus s = true) (index : BitVec 3) :
    s.extractLsb' 4 3 = index ↔ nibbleOf s = 1#1 ++ index := by
  revert s index; decide

/-- The index of a row is the low three bits of its command nibble (R101). -/
@[simp] theorem lutIndex_statusByte (n : Nibble) (ch : Channel) :
    (statusByte n ch).extractLsb' 4 3 = n.extractLsb' 0 3 := by
  revert n ch; decide

/-- `ev_channel` is the channel of the status byte (R91, R101). -/
@[simp] theorem evChannel_statusByte (n : Nibble) (ch : Channel) : (statusByte n ch).extractLsb' 0 4 = ch :=
  channelOf_statusByte n ch

/-- The wires of a message; `msg_data2` is free in a two-byte one (R59). -/
@[simp] theorem msgWiresOf_some (junk : MsgWires) (m : RawMessage) :
    msgWiresOf junk (some m) = ⟨true, m.statusByte, m.data1, m.data2.getD junk.msgData2, m.data2.isSome⟩ := rfl

/-- With no message on its wires, the circuit gives none (R101). -/
theorem translatorCircuit_no_message (cfg : Config) (junkIn : MsgWires) (junkOut : EventWires) :
    (translatorCircuit cfg junkOut (msgWiresOf junkIn none)).read = none := rfl

/-- Off the table's rows `ev_valid` is 0 (R99, R101). -/
theorem translatorCircuit_of_not_eventRow {m : RawMessage} (cfg : Config) (junkIn : MsgWires) (junkOut : EventWires)
    (hs : isStatus m.statusByte = true) (h : eventRow (nibbleOf m.statusByte) m.data2.isSome = false) :
    (translatorCircuit cfg junkOut (msgWiresOf junkIn (some m))).read = none := by
  obtain ⟨s, d1, d2⟩ := m
  cases d2 with
  | none => simp_all [translatorCircuit, lutIndex_eq_iff, eventRow, EventWires.read]
  | some d2 => simp_all [translatorCircuit, lutIndex_eq_iff, eventRow, EventWires.read]

/-- In each row the circuit drives the event of that row (R101); the bend by its pattern (R103). -/
theorem translatorCircuit_of_eventRow {m : RawMessage} (cfg : Config) (junkIn : MsgWires) (junkOut : EventWires)
    (h : eventRow (nibbleOf m.statusByte) m.data2.isSome = true) :
    (translatorCircuit cfg junkOut (msgWiresOf junkIn (some m))).read = translateWith cfg m := by
  obtain ⟨ch, d1, ⟨d2, rfl⟩ | ⟨d2, rfl⟩ | ⟨d2, rfl⟩ | ⟨d2, rfl⟩ | rfl | rfl⟩ := eventRow_cases h
  · simp [translatorCircuit, EventWires.read, translateWith_noteOff]
  · by_cases hd2 : d2 = 0#7
    · simp [translatorCircuit, EventWires.read, translateWith_noteOn, hd2]
    · simp [translatorCircuit, EventWires.read, translateWith_noteOn, hd2]
  · simp [translatorCircuit, EventWires.read, translateWith_ctrlChange]
  · simp [translatorCircuit, EventWires.read, translateWith_pitchBend, toInt_bendPattern]
  · simp [translatorCircuit, EventWires.read, translateWith_progChange]
  · simp [translatorCircuit, EventWires.read, translateWith_chanPressure]

/-- Settles O55: no message, a message in a row of the table, or one in none. -/
theorem circuitIsTheTranslator : Obligations.CircuitIsTheTranslator := by
  intro cfg junkIn junkOut m hstatus
  cases m with
  | none => exact translatorCircuit_no_message cfg junkIn junkOut
  | some m =>
    have hs : isStatus m.statusByte = true := hstatus m rfl
    cases h : eventRow (nibbleOf m.statusByte) m.data2.isSome with
    | false =>
      rw [translatorCircuit_of_not_eventRow cfg junkIn junkOut hs h]
      exact (translateWith_of_not_eventRow cfg h).symm
    | true => exact translatorCircuit_of_eventRow cfg junkIn junkOut h

end Sys2Proof.Machine
end

section
/-! PROOFS. Which bytes complete a message (R84, R109): O38. -/

namespace Sys2Proof.Machine

/-- The append completes a message exactly where one data byte is missing (R80). -/
theorem appendData_isSome_iff {p : ParserState} (hwf : p.wf = true) (b : Byte) :
    (appendData p b).2.isSome = true ↔ p.bytesPending = 1 := by
  obtain rfl | ⟨r, _, rfl⟩ | ⟨r, _, _, rfl⟩ | ⟨r, d, _, _, _, rfl⟩ | ⟨r, _, _, rfl⟩ := p.wf_cases hwf
  case inl => exact ⟨nofun, nofun⟩
  case inr.inl => exact ⟨nofun, nofun⟩
  case inr.inr.inl => exact ⟨nofun, nofun⟩
  case inr.inr.inr.inl => exact ⟨fun _ => rfl, fun _ => rfl⟩
  case inr.inr.inr.inr => exact ⟨fun _ => rfl, fun _ => rfl⟩

/-- A status of length 2 is one that calls for one data byte (R55). -/
theorem dataBytesOf_eq_one_iff (r : Byte) : dataBytesOf r = 1 ↔ msglen r = 2 :=
  ⟨fun h => by simp [msglen, h], dataBytesOf_of_msglen (n := 1)⟩

/-- Under running status the re-entry completes a message exactly where the latched status has length 2 (R81). -/
theorem reinject_isSome_iff {p : ParserState} {r : Byte} (hwf : p.wf = true) (hr : p.runningStatus = some r)
    (b : Byte) : (reinject p b).2.isSome = true ↔ msglen r = 2 := by
  have hopen : (latchStatus r (dataBytesOf r)).wf = true :=
    latchStatus_wf rfl ((recognised_iff_dataBytesOf r).mp (ParserState.recognised_of_wf hwf hr))
  rw [reinject_of_running hwf hr, appendData_isSome_iff hopen, latchStatus_bytesPending, dataBytesOf_eq_one_iff]

/-- A data byte completes a message in `AwaitingData(1)` and under a latched status of length 2 (R84). -/
theorem dataPath_isSome_iff {p : ParserState} (hwf : p.wf = true) (b : Byte) :
    (dataPath p b).2.isSome = true ↔
      p.bytesPending = 1 ∨ (p.bytesPending = 0 ∧ ∃ r, p.runningStatus = some r ∧ msglen r = 2) := by
  by_cases h0 : p.bytesPending = 0
  case pos =>
    cases hr : p.runningStatus with
    | none => simp [dataPath, h0, hr]
    | some r => simp [dataPath_eq, h0, reinject_isSome_iff hwf hr]
  case neg => simp [dataPath_eq, h0, appendData_isSome_iff hwf]

/-- Settles O38: the status path emits nothing, and on the data path the two cells of R84 do. -/
theorem onlyTheLastDataByteCompletes : Obligations.OnlyTheLastDataByteCompletes := by
  intro p p' b m h
  obtain ⟨hwf, ⟨hb, _, rfl⟩ | ⟨hb, hdata⟩⟩ := feedAsm_cases h
  case inl => simp [hb]
  case inr =>
    have hm : m = (dataPath p b).2 := congrArg Prod.snd hdata
    simp [hm, hb, dataPath_isSome_iff hwf]

end Sys2Proof.Machine
end

section
/-! PROOFS. The machine's step is the Facade's feed (R105): every byte row is the Assembler's step of R70 on its byte, so
that a step is `feed` (O41) and a run is `feed_chunk` (O42); and what every instruction leaves alone (O27). -/

namespace Sys2Proof.Machine

/-- Settles O27: what answered is the state with one message or none presented, and a message row is a call of the
Translator. -/
theorem everyInstructionDispatchesAtMostOnce : Obligations.EveryInstructionDispatchesAtMostOnce := by
  intro i s t h
  have hparser : (encode i).length ≠ 1 → t.parser = s.parser := fun hlen => by
    obtain ⟨m, hm⟩ := exec_eq_translatorStep hlen
    rw [translatorStep_next ((hm s).symm.trans h), State.present_parser]
  obtain ⟨_, p, m, rfl⟩ | ⟨m, rfl⟩ := exec_next_cases h
  case inl => exact ⟨rfl, rfl, rfl, hparser⟩
  case inr => exact ⟨rfl, rfl, rfl, hparser⟩

/-! ### The byte rows against the pseudocode of R70 -/

/-- The data path is the data row that the state selects (R62, R70). -/
theorem dataPath_of_dataContext (p : ParserState) (b : Byte) :
    (p.dataContext = .inFlight → dataPath p b = appendData p b) ∧
    (p.dataContext = .latched → dataPath p b = reinject p b) ∧
    (p.dataContext = .idle → dataPath p b = (p, none)) := by
  by_cases h0 : p.bytesPending = 0
  case pos =>
    cases hr : p.runningStatus with
    | none => simp [ParserState.dataContext_idle h0 hr, dataPath, h0, hr]
    | some r => simp [ParserState.dataContext_latched h0 hr, dataPath_eq, h0]
  case neg => simp [ParserState.dataContext_inFlight h0, dataPath_eq, h0]

/-- A status byte of a row that latches it with the data bytes it calls for (R72, R73, R75 to R78). -/
theorem feedAsm_of_dataBytesOf {p : ParserState} {b : Byte} {n : Fin 3} (hwf : p.wf = true) (hn : dataBytesOf b = n)
    (h0 : n ≠ 0) : feedAsm p b = some (latchStatus b n, none) := by
  subst hn
  exact feedAsm_of_recognised hwf ((recognised_iff_dataBytesOf b).mpr h0)

theorem feedAsm_of_isRealTime {p : ParserState} {b : Byte} (hwf : p.wf = true) (hb : isRealTime b = true) :
    feedAsm p b = some (p, none) := by
  rw [feedAsm_of_isStatus hwf (isStatus_of_isRealTime b hb), statusPath_of_isRealTime p hb]

theorem feedAsm_of_unsupported {p : ParserState} {b : Byte} (hwf : p.wf = true) (hb : unsupported b = true) :
    feedAsm p b = some (ParserState.fresh, none) := by
  rw [feedAsm_of_isStatus hwf (isStatus_of_unsupported hb), statusPath_of_unsupported p hb]

/-- The RT row's bytes are the Real-Time bytes, and those of ST_UNSUP_SYS and ST_UNSUP_A unsupported ones (R53). -/
theorem isRealTime_rt (code : BitVec 3) : isRealTime (0b11111#5 ++ code) = true := by
  revert code; decide

theorem unsupported_stUnsupSys (code : BitVec 3) : unsupported (0b11110#5 ++ code) = true := by
  revert code; decide

theorem unsupported_stUnsupA (ch : Channel) : unsupported (statusByte 0xA#4 ch) = true := by
  revert ch; decide

/-- Every row of one byte that the state selects is a byte step, and its transition is the Assembler's step on that byte
(R70 to R82). -/
theorem exec_eq_byteStep_feedAsm {i : Instr} {s : State} {b : Byte} (hwf : s.parser.wf = true) (hspell : encode i = [b])
    (hsel : selectedIn s.parser.dataContext i = true) :
    ∃ f, exec i s = byteStep s f ∧ feedAsm s.parser b = some (f s.parser) := by
  obtain ⟨hInFlight, hLatched, hIdle⟩ := dataPath_of_dataContext s.parser b
  cases i
  case rt => cases hspell; exact ⟨_, exec_rt _ s, feedAsm_of_isRealTime hwf (isRealTime_rt _)⟩
  case stNoteOff =>
    cases hspell; exact ⟨_, exec_stNoteOff _ s, feedAsm_of_dataBytesOf hwf (by simp [dataBytesOf]) (by decide)⟩
  case stNoteOn =>
    cases hspell; exact ⟨_, exec_stNoteOn _ s, feedAsm_of_dataBytesOf hwf (by simp [dataBytesOf]) (by decide)⟩
  case stCtrlChange =>
    cases hspell; exact ⟨_, exec_stCtrlChange _ s, feedAsm_of_dataBytesOf hwf (by simp [dataBytesOf]) (by decide)⟩
  case stProgChange =>
    cases hspell; exact ⟨_, exec_stProgChange _ s, feedAsm_of_dataBytesOf hwf (by simp [dataBytesOf]) (by decide)⟩
  case stChanPressure =>
    cases hspell; exact ⟨_, exec_stChanPressure _ s, feedAsm_of_dataBytesOf hwf (by simp [dataBytesOf]) (by decide)⟩
  case stPitchBend =>
    cases hspell; exact ⟨_, exec_stPitchBend _ s, feedAsm_of_dataBytesOf hwf (by simp [dataBytesOf]) (by decide)⟩
  case stUnsupA => cases hspell; exact ⟨_, exec_stUnsupA _ s, feedAsm_of_unsupported hwf (unsupported_stUnsupA _)⟩
  case stUnsupSys => cases hspell; exact ⟨_, exec_stUnsupSys _ s, feedAsm_of_unsupported hwf (unsupported_stUnsupSys _)⟩
  case dataAppend v =>
    cases hspell
    have hctx : s.parser.dataContext = .inFlight := eq_of_beq hsel
    refine ⟨_, (exec_dataAppend v s).trans (dataStep_of_dataContext hctx _), ?_⟩
    rw [feedAsm_of_data hwf (isStatus_dataByte v), hInFlight hctx]
  case dataRunning v =>
    cases hspell
    have hctx : s.parser.dataContext = .latched := eq_of_beq hsel
    refine ⟨_, (exec_dataRunning v s).trans (dataStep_of_dataContext hctx _), ?_⟩
    rw [feedAsm_of_data hwf (isStatus_dataByte v), hLatched hctx]
  case dataOrphan v =>
    cases hspell
    have hctx : s.parser.dataContext = .idle := eq_of_beq hsel
    refine ⟨_, (exec_dataOrphan v s).trans (dataStep_of_dataContext hctx _), ?_⟩
    rw [feedAsm_of_data hwf (isStatus_dataByte v), hIdle hctx]
  case msgOther _ _ d2 => cases d2 <;> cases hspell
  all_goals cases hspell

/-- The row of a byte writes the state and presents the message that the Assembler's step on it gives (R105). -/
theorem exec_decodeByte_of_feedAsm {s : State} {b : Byte} {p' : ParserState} {m : Option RawMessage}
    (h : feedAsm s.parser b = some (p', m)) :
    exec (decodeByte s.parser.dataContext b) s = .next ({ s with parser := p' }.present m) := by
  obtain ⟨hwf, _⟩ := feedAsm_cases h
  obtain ⟨hspell, _, hsel⟩ := decodeByte_spelling s.parser.dataContext b
  obtain ⟨f, hexec, hf⟩ := exec_eq_byteStep_feedAsm hwf hspell hsel
  have hres : f s.parser = (p', m) := Option.some.inj (hf.symm.trans h)
  rw [hexec, byteStep_of_wf hwf, hres]

/-! ### Steps and runs -/

/-- Settles O41: the offered byte is fetched as its row, and the row is the Assembler's step. -/
theorem stepIsTheFacadeFeed : Obligations.StepIsTheFacadeFeed := by
  intro s b rest hwf hin
  obtain ⟨p', m, hfeed, _⟩ := everyByteKeepsWellFormedness s.parser b hwf
  refine ⟨p', m, hfeed, feed_of_feedAsm hfeed, ?_⟩
  rw [step_of_input_cons_instr hin (fetchInput_ofByte _ b)]
  exact exec_decodeByte_of_feedAsm (s := { s with input := rest }) hfeed

/-- Settles O42, by induction on the stream: the first step is the feed of the first byte and leaves a well-formed state
with the rest to be applied. -/
theorem runIsFeedChunk : Obligations.RunIsFeedChunk := by
  intro s bytes
  induction bytes generalizing s with
  | nil => exact fun _ hin => ⟨s.parser, [], s, rfl, rfl, rfl, hin, (List.append_nil _).symm⟩
  | cons b rest ih =>
    intro hwf hin
    obtain ⟨q, m, _, hfeed, hstep⟩ := stepIsTheFacadeFeed s b _ hwf hin
    obtain ⟨p', events, t, hchunk, hrun, hparser, hinput, hsink⟩ :=
      ih ⟨q, rest.map Input.ofByte, m, m.bind translateMsg, s.sink ++ (m.bind translateMsg).toList⟩
        (feed_wf hwf hfeed) rfl
    refine ⟨p', (m.bind translateMsg).toList ++ events, t, ?_, ?_, hparser, hinput, ?_⟩
    · simp [feedChunk_cons, hfeed, hchunk]
    · rw [List.length_cons, run_succ_of_step hstep, hrun]
    · rw [hsink, List.append_assoc]

end Sys2Proof.Machine
end

section
/-! PROOFS. The events of a stream (R107, R110, R111): fed in parts, O43; one for each message, O48; and how many, O49. -/

namespace Sys2Proof.Machine

/-- Settles O43: the empty chunk by definition, the concatenation by the law of `feedChunk` on it. -/
theorem feedingChunksInTurn : Obligations.FeedingChunksInTurn :=
  fun p xs ys => ⟨rfl, feedChunk_append p xs ys⟩

/-! ### Every message that the Assembler emits translates -/

/-- A recognised status with the length it implies matches a row of R92 to R98 (R55). -/
theorem eventRow_of_recognised (b : Byte) : recognised b = true → eventRow (nibbleOf b) (msglen b == 3) = true := by
  revert b; decide

/-- A message has a second data byte exactly when it is three bytes long (R91). -/
theorem RawMessage.isSome_data2_eq (m : RawMessage) : m.data2.isSome = (m.len == 3) := by
  unfold RawMessage.len
  cases m.data2 <;> rfl

/-- An emitted message has an event (R85, R110). -/
theorem translateMsg_isSome_of_feedAsm {p p' : ParserState} {b : Byte} {m : RawMessage}
    (h : feedAsm p b = some (p', some m)) : (translateMsg m).isSome = true := by
  obtain ⟨hrec, hlen, _⟩ := emittedMessageShape p p' b m h
  refine (eventIffARowMatches Config.hardware m (isStatus_of_recognised _ hrec)).mpr ?_
  rw [RawMessage.isSome_data2_eq, hlen]
  exact eventRow_of_recognised _ hrec

/-- One byte dispatches one event for each message it completes (R110). -/
theorem map_translateMsg_of_feedAsm {p p' : ParserState} {b : Byte} {m : Option RawMessage}
    (h : feedAsm p b = some (p', m)) : m.toList.map translateMsg = (m.bind translateMsg).toList.map some := by
  cases m with
  | none => rfl
  | some m =>
    obtain ⟨e, he⟩ := Option.isSome_iff_exists.mp (translateMsg_isSome_of_feedAsm h)
    simp [he]

/-- Settles O48, by induction on the stream: byte by byte, the messages completed and the events dispatched correspond. -/
theorem everyCompletedMessageIsDispatched : Obligations.EveryCompletedMessageIsDispatched := by
  intro p bytes
  induction bytes generalizing p with
  | nil => exact fun _ => ⟨p, [], [], rfl, rfl, rfl⟩
  | cons b rest ih =>
    intro hwf
    obtain ⟨q, m, hfeed, hq⟩ := everyByteKeepsWellFormedness p b hwf
    obtain ⟨p', messages, events, hmessages, hevents, hmap⟩ := ih q hq
    refine ⟨p', m.toList ++ messages, (m.bind translateMsg).toList ++ events, ?_, ?_, ?_⟩
    · simp [assembleChunk_cons_of_feedAsm hfeed, hmessages]
    · simp [feedChunk_cons, feed_of_feedAsm hfeed, hevents]
    · rw [List.map_append, List.map_append, map_translateMsg_of_feedAsm hfeed, hmap]

/-! ### The number of events -/

/-- A byte dispatches at most one event, so a stream has no more events than bytes (R111). -/
theorem length_events_le {p p' : ParserState} {bytes : List Byte} {events : List MidiEvent}
    (h : feedChunk p bytes = some (p', events)) : events.length ≤ bytes.length := by
  induction bytes generalizing p events with
  | nil => cases h; exact le_rfl
  | cons b rest ih =>
    simp only [feedChunk_cons, Option.bind_eq_some_iff, Option.map_eq_some_iff] at h
    obtain ⟨⟨q, e⟩, _, ⟨p'', es⟩, hrest, heq⟩ := h
    cases heq
    have hone : e.toList.length ≤ 1 := by cases e <;> simp
    have hes : es.length ≤ rest.length := ih hrest
    simp only [List.length_append, List.length_cons]
    omega

/-- No byte completes a message in the reset state (R84). -/
theorem feed_fresh_dispatches_nothing (b : Byte) : ∃ q, feed ParserState.fresh b = some (q, none) := by
  obtain ⟨q, m, hfeed, _⟩ := everyByteKeepsWellFormedness ParserState.fresh b ParserState.fresh_wf
  have hm : m = none := by
    simpa using onlyTheLastDataByteCompletes ParserState.fresh q b m hfeed
  subst hm
  exact ⟨q, feed_of_feedAsm hfeed⟩

/-- From the reset state the first byte of a stream has no event (R111). -/
theorem length_events_lt_of_fresh {p' : ParserState} {b : Byte} {rest : List Byte} {events : List MidiEvent}
    (h : feedChunk ParserState.fresh (b :: rest) = some (p', events)) : events.length < (b :: rest).length := by
  obtain ⟨q, hq⟩ := feed_fresh_dispatches_nothing b
  rw [feedChunk_cons_of_feed_none hq] at h
  exact Nat.lt_succ_of_le (length_events_le h)

/-- Under a latched Program Change each data byte has its event (R56, R97). -/
theorem feedChunk_latched_replicate (k : Nat) :
    feedChunk ⟨some 0xC0#8, [], 0⟩ (List.replicate k 0x05#8) =
      some (⟨some 0xC0#8, [], 0⟩, List.replicate k (.programChange 0#4 5#7)) := by
  induction k with
  | zero => rfl
  | succ k ih =>
    have hfeed : feed ⟨some 0xC0#8, [], 0⟩ 0x05#8 = some (⟨some 0xC0#8, [], 0⟩, some (.programChange 0#4 5#7)) := by
      decide
    simp [List.replicate_succ, feedChunk_cons, hfeed, ih]

/-- Behind the Program Change status itself likewise: its first data byte leaves it latched. -/
theorem feedChunk_awaiting_replicate (k : Nat) :
    ∃ p', feedChunk ⟨some 0xC0#8, [0xC0#8], 1⟩ (List.replicate k 0x05#8) =
      some (p', List.replicate k (.programChange 0#4 5#7)) := by
  cases k with
  | zero => exact ⟨_, rfl⟩
  | succ k =>
    have hfeed :
        feed ⟨some 0xC0#8, [0xC0#8], 1⟩ 0x05#8 = some (⟨some 0xC0#8, [], 0⟩, some (.programChange 0#4 5#7)) := by
      decide
    refine ⟨⟨some 0xC0#8, [], 0⟩, ?_⟩
    simp [List.replicate_succ, feedChunk_cons, hfeed, feedChunk_latched_replicate k]

/-- Settles O49: one event a byte at the most and none for the first from reset; Program Changes under one status reach
both bounds. -/
theorem eventCountIsBounded : Obligations.EventCountIsBounded := by
  refine ⟨fun p p' bytes events h => ⟨length_events_le h, fun hp hne => ?fromReset⟩, fun k => ?resetBound,
    fun k => ?bound⟩
  case fromReset =>
    subst hp
    cases bytes with
    | nil => exact absurd rfl hne
    | cons b rest => exact length_events_lt_of_fresh h
  case resetBound =>
    have hopen : feed ParserState.fresh 0xC0#8 = some (⟨some 0xC0#8, [0xC0#8], 1⟩, none) := by decide
    obtain ⟨p', hchunk⟩ := feedChunk_awaiting_replicate k
    exact ⟨p', _, (feedChunk_cons_of_feed_none hopen _).trans hchunk, List.length_replicate⟩
  case bound => exact ⟨_, _, feedChunk_latched_replicate k, List.length_replicate⟩

end Sys2Proof.Machine
end

section
/-! PROOFS. A cycle without a byte (R44, R132): what is fetched then, and what the step leaves, O8. -/

namespace Sys2Proof.Machine

variable {s : State}

theorem fetch_of_input_nil (h : s.input = []) : fetch s = .nothing := by
  simp only [fetch, h]

theorem State.advance_of_input_nil (h : s.input = []) : s.advance = s := by
  simp only [State.advance, h, List.tail_nil]
  rw [← h]

/-- A cycle that offers no byte is read as nothing in every data context, whatever stands on `in_byte` (R44). -/
theorem fetchInput_cycle_of_not_inValid {c : PortCycle} (ctx : DataContext) (hrst : c.rst = false)
    (hvalid : c.inValid = false) : fetchInput ctx (.cycle c) = .nothing := by
  simp [fetchInput, hrst, hvalid]

/-- With nothing to feed, only the strobes and the input change (R132). -/
theorem step_of_fetch_nothing (h : fetch s = .nothing) :
    step s = .next { s.advance with message := none, event := none } := by
  simp only [step, h, State.quiet, State.present_none]

/-- Settles O8: both inputs are fetched as nothing, and the input moves on where there is one. -/
theorem noByteKeepsTheState : Obligations.NoByteKeepsTheState := by
  intro s
  refine ⟨fun hin => ?empty, fun c rest hin hrst hvalid => ?cycle⟩
  case empty => rw [step_of_fetch_nothing (fetch_of_input_nil hin), State.advance_of_input_nil hin]
  case cycle =>
    have hfetch : fetch s = .nothing := (fetch_of_input_cons hin).trans (fetchInput_cycle_of_not_inValid _ hrst hvalid)
    rw [step_of_fetch_nothing hfetch, State.advance_of_input_cons hin]

end Sys2Proof.Machine
end

section
/-! PROOFS. The anomalies (R116 to R120, R124): what each leaves, and that none has an event, O50. -/

namespace Sys2Proof.Machine

/-- A status byte below `0xF8` latches itself or clears the state, and drops what was in flight (R83, R120). -/
theorem feed_of_not_isRealTime {p : ParserState} {b : Byte} (hwf : p.wf = true) (hb : isStatus b = true)
    (hrt : isRealTime b = false) :
    feed p b = some (if recognised b then latchStatus b (dataBytesOf b) else ParserState.fresh, none) := by
  have hasm : feedAsm p b = some (if recognised b then latchStatus b (dataBytesOf b) else ParserState.fresh, none) := by
    rw [feedAsm_of_isStatus hwf hb, statusPath_eq, hrt, if_neg Bool.false_ne_true]
  exact feed_of_feedAsm hasm

/-- Settles O50: AN1 is a data byte in `Idle`, AN2, AN3 and AN5 are status bytes, and AN4 is a message without an
event. -/
theorem anomaliesProduceNoEvent : Obligations.AnomaliesProduceNoEvent := by
  refine ⟨fun a p b hwf hat => ?byte, fun m s hm => ?message⟩
  case message => exact translatorStep_of_no_event (Option.isNone_iff_eq_none.mp hm) s
  case byte =>
    cases a
    case desynchronised =>
      obtain ⟨hb, hidle⟩ : isStatus b = false ∧ p.isIdle = true := by simpa [Anomaly.atByte] using hat
      obtain rfl : p = ParserState.fresh := ParserState.isIdle_iff_eq_fresh.mp hidle
      exact ⟨_, feed_fresh_of_data hb, fun _ => rfl, nofun, nofun, nofun⟩
    case unsupportedStatus => exact ⟨_, feed_of_unsupported hwf hat, nofun, fun _ => rfl, nofun, nofun⟩
    case realTime => exact ⟨_, feed_of_isRealTime hwf hat, nofun, nofun, fun _ => rfl, nofun⟩
    case unmappedMessage => exact absurd hat Bool.false_ne_true
    case truncated =>
      obtain ⟨⟨hb, hrt⟩, _⟩ : (isStatus b = true ∧ isRealTime b = false) ∧ p.inFlight = true := by
        simpa [Anomaly.atByte] using hat
      exact ⟨_, feed_of_not_isRealTime hwf hb hrt, nofun, nofun, nofun, fun _ => rfl⟩

end Sys2Proof.Machine
end

section
/-! PROOFS. Safety (R84, R115): a safe state steps, to a safe state, and so runs for any number of steps, O59. -/

namespace Sys2Proof.Machine

/-! ### Progress -/

/-- Every instruction that a well-formed state selects answers: a byte row is a byte step and a message row a call of
the Translator (R84, R90). -/
theorem exec_answers_of_selectedIn {i : Instr} {s : State} (hwf : s.parser.wf = true)
    (hsel : selectedIn s.parser.dataContext i = true) : ∃ t, exec i s = .next t := by
  by_cases hlen : (encode i).length = 1
  case pos =>
    obtain ⟨b, hspell⟩ := List.length_eq_one_iff.mp hlen
    obtain ⟨f, hexec, _⟩ := exec_eq_byteStep_feedAsm hwf hspell hsel
    exact ⟨_, hexec.trans (byteStep_of_wf hwf f)⟩
  case neg =>
    obtain ⟨m, hexec⟩ := exec_eq_translatorStep hlen
    exact ⟨_, hexec s⟩

/-- A message's row is selected in every data context (R90). -/
theorem selectedIn_of_decodeMessage {bytes : List Byte} {i : Instr} (ctx : DataContext)
    (h : decodeMessage bytes = .ok i) : selectedIn ctx i = true := by
  obtain ⟨s, d1, hs, _, rfl⟩ | ⟨s, d1, d2, hs, _, rfl⟩ := decodeMessage_ok_cases h
  · exact (decodeM2_spelling ctx hs d1).2.2
  · exact (decodeM3_spelling ctx hs d1 d2).2.2

theorem Input.acceptable_message_iff (bytes : List Byte) :
    (Input.message bytes).acceptable = true ↔ ∃ i, decodeMessage bytes = .ok i := by
  cases h : decodeMessage bytes <;> simp [Input.acceptable, Except.toOption, h]

/-- Everything an acceptable input can be read as: it is never rejected, and its instruction is selected. -/
theorem fetchInput_cases_of_acceptable {inp : Input} (ctx : DataContext) (h : inp.acceptable = true) :
    fetchInput ctx inp = .nothing ∨ fetchInput ctx inp = .reset ∨
      ∃ i, fetchInput ctx inp = .instr i ∧ selectedIn ctx i = true := by
  cases inp with
  | cycle c =>
    match c with
    | ⟨true, _, _⟩ => exact .inr (.inl rfl)
    | ⟨false, false, _⟩ => exact .inl rfl
    | ⟨false, true, b⟩ =>
      obtain ⟨_, _, hsel⟩ := decodeByte_spelling ctx b
      exact .inr (.inr ⟨_, rfl, hsel⟩)
  | message bytes =>
    obtain ⟨i, hi⟩ := (Input.acceptable_message_iff bytes).mp h
    exact .inr (.inr ⟨i, fetchInput_message_of_ok ctx hi, selectedIn_of_decodeMessage ctx hi⟩)

theorem State.safe_iff (s : State) :
    s.safe = true ↔ s.parser.wf = true ∧ ∀ inp ∈ s.input, inp.acceptable = true := by
  simp [State.safe]

/-- What a safe state is presented with next, which may be nothing (R132), is never rejected either. -/
theorem fetch_cases_of_safe {s : State} (h : s.safe = true) :
    fetch s = .nothing ∨ fetch s = .reset ∨
      ∃ i, fetch s = .instr i ∧ selectedIn s.parser.dataContext i = true := by
  cases hin : s.input with
  | nil => exact .inl (fetch_of_input_nil hin)
  | cons inp rest =>
    obtain ⟨_, hinput⟩ := (State.safe_iff s).mp h
    rw [fetch_of_input_cons hin]
    exact fetchInput_cases_of_acceptable _ (hinput inp (by simp [hin]))

theorem step_of_fetch_reset {s : State} (h : fetch s = .reset) : step s = .next s.advance.applyReset := by
  simp only [step, h]

/-- A safe state steps (R115). -/
theorem step_answers_of_safe {s : State} (h : s.safe = true) : ∃ t, step s = .next t := by
  obtain ⟨hwf, _⟩ := (State.safe_iff s).mp h
  obtain hf | hf | ⟨i, hf, hsel⟩ := fetch_cases_of_safe h
  · exact ⟨_, step_of_fetch_nothing hf⟩
  · exact ⟨_, step_of_fetch_reset hf⟩
  · rw [step_of_fetch_instr hf]
    exact exec_answers_of_selectedIn (s := s.advance) hwf hsel

/-! ### Preservation -/

/-- Every step that answers moves the input on by one and no more (R22, R31). -/
theorem step_next_input {s t : State} (h : step s = .next t) : t.input = s.input.tail := by
  obtain ⟨_, hstep⟩ | ⟨_, hstep⟩ | ⟨i, _, hstep⟩ | ⟨e, _, hstep⟩ := step_cases s <;> rw [hstep] at h
  · cases h; rfl
  · cases h; rfl
  · exact exec_next_input h
  · cases h

/-- A step leaves a well-formed state (R17) and a part of the input it found. -/
theorem step_next_safe {s t : State} (hsafe : s.safe = true) (h : step s = .next t) : t.safe = true := by
  obtain ⟨hwf, hinput⟩ := (State.safe_iff s).mp hsafe
  refine (State.safe_iff t).mpr ⟨step_next_wf hwf h, fun inp hinp => hinput inp ?_⟩
  rw [step_next_input h] at hinp
  exact List.mem_of_mem_tail hinp

/-! ### Runs -/

theorem runsFor_of_safe {s : State} (h : s.safe = true) (n : Nat) : runsFor n s := by
  induction n generalizing s with
  | zero => exact ⟨s, rfl⟩
  | succ n ih =>
    obtain ⟨t, hstep⟩ := step_answers_of_safe h
    obtain ⟨u, hrun⟩ := ih (step_next_safe h hstep)
    exact ⟨u, (run_succ_of_step hstep n).trans hrun⟩

/-- Settles O59: progress and preservation of safety, iterated. -/
theorem safeStatesNeverStop : Obligations.SafeStatesNeverStop :=
  fun _ h => ⟨runsFor_of_safe h, fun _ => step_next_safe h⟩

end Sys2Proof.Machine
end

section
/-! PROOFS. A reset cycle (R135, R137, D16), and the data bytes after it (R136): O7 and O47. -/

namespace Sys2Proof.Machine

/-! ### The reset cycle -/

/-- A cycle with `rst` 1 is read as a reset in every data context, whatever stands on `in_valid` and `in_byte` (R137). -/
theorem fetchInput_cycle_of_rst {c : PortCycle} (ctx : DataContext) (hrst : c.rst = true) :
    fetchInput ctx (.cycle c) = .reset := by
  simp [fetchInput, hrst]

/-- A reset loads the fresh state and lowers both strobes; the input and the Sink's record are kept (R135). -/
theorem State.applyReset_eq (s : State) :
    s.applyReset = { s with parser := ParserState.fresh, message := none, event := none } := by
  rw [State.applyReset, State.present_none]

/-- Settles O7: the cycle is fetched as a reset before its byte is looked at, and the input moves on by that cycle. -/
theorem resetCycleWins : Obligations.ResetCycleWins := by
  intro s c rest hin hrst
  have hfetch : fetch s = .reset := (fetch_of_input_cons hin).trans (fetchInput_cycle_of_rst _ hrst)
  rw [step_of_fetch_reset hfetch, State.advance_of_input_cons hin, State.applyReset_eq]
  rfl

/-! ### The data bytes after a reset -/

/-- A data byte offered in the fresh state is an orphan: both strobes are 0 and only the input moves on (R82). -/
theorem step_fresh_of_data {s : State} {b : Byte} {rest : List Input} (hfresh : s.parser = ParserState.fresh)
    (hin : s.input = Input.ofByte b :: rest) (hb : isStatus b = false) :
    step s = .next { s with input := rest, message := none, event := none } := by
  have hfeed : feedAsm s.parser b = some (s.parser, none) := by
    rw [hfresh]
    exact feedAsm_of_data ParserState.fresh_wf hb
  rw [step_of_input_cons_instr hin (fetchInput_ofByte _ b),
    exec_decodeByte_of_feedAsm (s := { s with input := rest }) hfeed, State.present_none]

/-- In the fresh state a run over data bytes uses up the input and changes nothing else (R82, R136). -/
theorem run_fresh_of_data {bytes : List Byte} (hdata : ∀ b ∈ bytes, isStatus b = false) (sink : List MidiEvent) :
    Host.Core.run Sys2Proof.core bytes.length ⟨ParserState.fresh, bytes.map Input.ofByte, none, none, sink⟩ =
      .next ⟨ParserState.fresh, [], none, none, sink⟩ := by
  induction bytes with
  | nil => rfl
  | cons b rest ih =>
    obtain ⟨hb, hrest⟩ := List.forall_mem_cons.mp hdata
    rw [List.length_cons, run_succ_of_step (step_fresh_of_data rfl rfl hb)]
    exact ih hrest

/-- Settles O47: the reset cycle leaves the fresh state, whatever was in flight, and the data bytes run from there. -/
theorem resetMidMessageDropsIt : Obligations.ResetMidMessageDropsIt := by
  intro s bytes hdata hin
  rw [run_succ_of_step (resetCycleWins s _ _ hin rfl)]
  exact run_fresh_of_data hdata s.sink

end Sys2Proof.Machine
end
